-- ==== Sys2Proof/Word.lean ====
section
/-! DEFINITION. The word type of the block: one byte (00_scope.md R9, 20_memory.md R59). -/

namespace Sys2Proof

/-- `u8`: every register, address, mask and value of the register port is one byte (R9, R50). -/
abbrev Byte := BitVec 8

/-- `(v & m) != 0`, "a bit of m is set in v" (R9). -/
def anyBit (v m : Byte) : Bool := (v &&& m) != 0#8

end Sys2Proof
end

