-- ==== Sys2Proof/Config.lean ====
section
/-! DEFINITION. The configuration record `Cfg` of 00_scope.md R7, its instantiation EX, and the free
values: constants without a body that stand for the environment's draws. -/

namespace Sys2Proof

/-- A status triplet `[b0, b1, b2]` (R9, R76). -/
structure Triplet where
  b0 : Byte
  b1 : Byte
  b2 : Byte
  deriving DecidableEq, Repr

/-- The DetectionResult record (R12, 10_state.md R24). -/
structure DetectionResult where
  force     : Byte
  status    : Triplet
  succeeded : Bool
  deriving DecidableEq, Repr

/-- A field of a triplet: byte index and mask (R9). -/
structure TripletField where
  idx  : Fin 3
  mask : Byte
  deriving DecidableEq, Repr

/-- A field of the status pair `(s0, s1)`: pair index and mask (43_key_decoder.md R200). -/
structure PairField where
  idx  : Fin 2
  mask : Byte
  deriving DecidableEq, Repr

/-- Where the press bit is read (R7, `PRESS_FIELD`). -/
inductive PressSource where
  | keyscan | status0 | status1
  deriving DecidableEq, Repr

/-- `PRESS_FIELD`: source and mask (R7). -/
structure PressField where
  src  : PressSource
  mask : Byte
  deriving DecidableEq, Repr

/-- The two test variants (R7, `TEST_VARIANT`). -/
inductive Variant where
  | v0 | v1
  deriving DecidableEq, Repr

/-- An operation of `TEST_START` or `CLOCK_DIV_WRITES`: "only `Write` and `Update`" (30_encoding.md R72). -/
inductive StoreOp where
  | write (addr value : Byte)
  | update (addr mask value : Byte)
  deriving DecidableEq, Repr

/-- A pair of interrupt-mask values (30_encoding.md R79). -/
structure MaskPair where
  m1 : Byte
  m2 : Byte
  deriving DecidableEq, Repr

/-- A voltage label; the voltage itself is not in the source (R7 `PWR_TARGET`, N19). -/
structure VoltageLabel where
  id : Nat
  deriving DecidableEq, Repr

/-- The configuration record of R7. No step writes it (20_memory.md R68). Constants that D00 fixes
(`MIC_FIELD`, `KS_DATA_MASK`, `KS_OFFSET`) are definitions in Machine/Operands.lean. -/
structure Cfg where
  regStatus0      : Byte
  regStatus1      : Byte
  regStatus2      : Byte
  regIrqMask1     : Byte
  regIrqMask2     : Byte
  regLvol         : Byte
  regRvol         : Byte
  regKeyscan      : Byte
  regForce        : Byte
  regOverride     : Byte
  regEnable       : Byte
  regDetectDone   : Byte
  regDetectResult : Byte
  regId           : Byte
  volatileExtra   : List Byte
  /-- `ID_OK`, a predicate on the ID byte, as the list of the bytes it holds of. -/
  idOk            : List Byte
  s0JackSw        : Byte
  s0EventMask     : Byte
  s0PlugSwEvent   : Byte
  keyLine0Mask    : Byte
  keyLine1Mask    : Byte
  hpField         : TripletField
  lineField       : TripletField
  mcswField       : PairField
  key2Field       : PairField
  pressField      : PressField
  ksRangeMask     : Byte
  keyT0           : Nat
  keyT1           : Nat
  doneMask        : Byte
  muteLMask       : Byte
  muteRMask       : Byte
  enMask          : Byte
  ovrMask         : Byte
  forceHiz        : Byte
  maskPlugOnly    : MaskPair
  maskPresent     : MaskPair
  testVariant     : Variant
  testStartV0     : List StoreOp
  testStartV1     : List StoreOp
  retryBudget     : Nat
  pollCap         : Nat
  debounceSamples : Nat
  fourthCode      : Option (Byte × DetectionResult)
  clockDivWrites  : List StoreOp
  pwrTarget       : VoltageLabel
  resetMasks      : MaskPair
  ioFail          : Bool
  tCoalesceMs       : Nat
  tInitMs           : Nat
  tResumeMs         : Nat
  tDebounceWindowMs : Nat
  tDebounceStepMs   : Nat
  tSuspendSettleMs  : Nat
  tPollMs           : Nat
  deriving DecidableEq, Repr

/-- The example instantiation EX: the last column of R7's table and 95_test_vectors.md section 2. It is
the spec's own example and not the MAX97236 register map (R7). -/
def Cfg.ex : Cfg where
  regStatus0      := 0x00
  regStatus1      := 0x01
  regStatus2      := 0x02
  regIrqMask1     := 0x04
  regIrqMask2     := 0x05
  regLvol         := 0x07
  regRvol         := 0x08
  regKeyscan      := 0x15
  regForce        := 0x1A
  regOverride     := 0x1B
  regEnable       := 0x1D
  regDetectDone   := 0x10
  regDetectResult := 0x11
  regId           := 0x0B
  volatileExtra   := [0x1E]
  idOk            := [0x91]
  s0JackSw        := 0x04
  s0EventMask     := 0x83
  s0PlugSwEvent   := 0x80
  keyLine0Mask    := 0x03
  keyLine1Mask    := 0xC4
  hpField         := ⟨1, 0x20⟩
  lineField       := ⟨1, 0xC0⟩
  mcswField       := ⟨0, 0x02⟩
  key2Field       := ⟨1, 0x04⟩
  pressField      := ⟨.keyscan, 0x80⟩
  ksRangeMask     := 0x40
  keyT0           := 16
  keyT1           := 96
  doneMask        := 0x01
  muteLMask       := 0x80
  muteRMask       := 0x80
  enMask          := 0x80
  ovrMask         := 0x10
  forceHiz        := 0x00
  maskPlugOnly    := ⟨0x80, 0x00⟩
  maskPresent     := ⟨0x83, 0xC4⟩
  testVariant     := .v0
  testStartV0     := [.write 0x1A 0x5F, .write 0x1C 0x00, .write 0x1E 0x01]
  testStartV1     := [.write 0x1A 0x5F, .write 0x1C 0x01, .write 0x1E 0x01]
  retryBudget     := 3
  pollCap         := 5
  debounceSamples := 38
  fourthCode      := none
  clockDivWrites  := []
  pwrTarget       := ⟨0⟩
  resetMasks      := ⟨0x00, 0x00⟩
  ioFail          := true
  tCoalesceMs       := 10
  tInitMs           := 250
  tResumeMs         := 10
  tDebounceWindowMs := 760
  tDebounceStepMs   := 20
  tSuspendSettleMs  := 3000
  tPollMs           := 10

/-! ## Free values (log 2, log 4, log 20)

The environment's draws (10_state.md R33). Each is applied to `State.source`, which tells the environments of
several instances apart (60_exceptions.md R256), and to `State.draws`, a counter that every draw advances, so
that no two draws share their arguments and nothing constrains what a draw gives. -/

/-- The byte a bus read returns (R52). -/
opaque Config.readByte : Nat → Nat → BitVec 8
/-- Whether the environment lets a bus read succeed (R52, R55). -/
opaque Config.readOk : Nat → Nat → Bool
/-- Whether the environment lets a bus write or update succeed (R53, R54, R58). -/
opaque Config.writeOk : Nat → Nat → Bool
/-- Whether a failed write or update took effect on the codec (R53, R54, R55, R58). -/
opaque Config.writeTaken : Nat → Nat → Bool
/-- Whether a call of the power collaborator succeeds (44_lifecycle.md R221). -/
opaque Config.powerOk : Nat → Nat → Bool
/-- Which of the enabled agents steps next (60_exceptions.md R246). -/
opaque Config.agentChoice : Nat → Nat → Nat
/-- Which of several instances steps next (60_exceptions.md R256); the argument counts the turns. -/
opaque Config.instanceChoice : Nat → Nat

end Sys2Proof
end

