-- ==== Sys2Proof/Syntax.lean ====
section
/-! DEFINITION. The enumerations of 30_encoding.md, the seven formats of spec/opcode_table.json, the
encoded items the decoder reads, and Instr: one constructor per row of spec/opcode_table.json. -/

namespace Sys2Proof

/-- JackState (30_encoding.md R74, 10_state.md R20). -/
inductive JackState where
  | none | unknown | headphone | headset | lineOut
  deriving DecidableEq, Repr

/-- Button identifiers (30_encoding.md R75). -/
inductive Button where
  | button0 | button1 | button2
  deriving DecidableEq, Repr

/-- The six input events (30_encoding.md R71). -/
inductive Event where
  | probe | irq | fire | suspend | resume | remove
  deriving DecidableEq, Repr

/-- A report (30_encoding.md R73). -/
inductive Report where
  | jack (j : JackState)
  | button (b : Button)
  | release
  deriving DecidableEq, Repr

/-- A port operation as the trace records it (30_encoding.md R72); `value` of a read is the byte
returned. -/
inductive PortOp where
  | read (addr value : Byte)
  | write (addr value : Byte)
  | update (addr mask value : Byte)
  | cacheOnly (b : Bool)
  | resync
  deriving DecidableEq, Repr

/-- The formats of spec/opcode_table.json (30_encoding.md R80). -/
inductive Format where
  | event | port | report | result | classify | keyscan | button
  deriving DecidableEq, Repr

/-- Bytes to decode, with the format they are in: "a decoder tells the length of each item from its
format alone" (30_encoding.md R70). Bytes stand lowest first. -/
structure Item where
  fmt   : Format
  bytes : List Byte
  deriving DecidableEq, Repr

/-- Why the decoder rejects bytes (30_encoding.md R81). -/
inductive DecodeError where
  /-- The bytes end before the format's width (R70). -/
  | tooShort
  /-- Bytes are left over after the format's width (R70). -/
  | trailing
  /-- An `EVENT` code outside 0x01 to 0x06. -/
  | reservedEvent (code : Byte)
  /-- A `PORT` `op` value 5 to 15. -/
  | portOp
  /-- A nonzero reserved bit [27:25] of a `PORT` word. -/
  | portReserved
  /-- A field of a `PORT` word that R72 gives as 0 for this `op` is not 0. -/
  | portUnusedField
  /-- A `REPORT` `kind` other than 0x01 to 0x03. -/
  | reportKind
  /-- A `REPORT` `value` that is no JackState code, no button id, or not 0x00 for a release. -/
  | reportValue
  deriving DecidableEq, Repr

/-- One constructor per row of spec/opcode_table.json, in the table's order. -/
inductive Instr where
  -- EVENT (R71)
  | evProbe
  | evIrq
  | evFire
  | evSuspend
  | evResume
  | evRemove
  -- PORT (R72)
  | read (addr : Byte)
  | write (addr value : Byte)
  | update (addr mask value : Byte)
  | cacheOnly (b : Bool)
  | resync
  -- REPORT (R73)
  | repJack (j : JackState)
  | repButton (b : Button)
  | repRelease
  -- RESULT (R78)
  | res01
  | res09
  | res19
  | resFourth (res : Byte)
  | resFailBias (res : Byte)
  | resFailNoBias (res : Byte)
  -- CLASSIFY (R131)
  | clHeadset (t : Triplet)
  | clHeadphone (t : Triplet)
  | clLineOut (t : Triplet)
  | clNone (t : Triplet)
  -- KEYSCAN (R77, R201)
  | keyscan (ks : Byte)
  -- BUTTON (R202)
  | btn0 (s0 s1 ks : Byte)
  | btn1 (s0 s1 ks : Byte)
  | btn2 (s0 s1 ks : Byte)
  | btnNone (s0 s1 ks : Byte)
  deriving DecidableEq, Repr

/-- The event's row of the table. -/
def Event.instr : Event → Instr
  | .probe => .evProbe
  | .irq => .evIrq
  | .fire => .evFire
  | .suspend => .evSuspend
  | .resume => .evResume
  | .remove => .evRemove

end Sys2Proof
end

