-- ==== Sys2Proof/Machine/Operands.lean ====
section
/-! DEFINITION. Operand forms: the fields of the bytes the block reads (30_encoding.md R76, R77), the
pure functions over them (R102, R131, R161, R170, R201, R202, R203), the register names, and which
registers are volatile (20_memory.md R51). All are functions of the configuration and of bytes. -/

namespace Sys2Proof.Machine

/-! ## Constants that D00 fixes (00_scope.md R7) -/

/-- `MIC_FIELD = (0, 0x08)` (R8). -/
def micField : TripletField := ⟨0, 0x08⟩
/-- `KS_DATA_MASK`, the "low 6 bits" of the keyscan byte. -/
def ksDataMask : Byte := 0x3F
/-- `KS_OFFSET`, added when the range bit is clear. -/
def ksOffset : BitVec 7 := 64
/-- The triplet `[0x00, 0x00, 0x00]` of R163 and R179. -/
def zeroTriplet : Triplet := ⟨0, 0, 0⟩

/-! ## Fields -/

/-- `t[i]` for a triplet. -/
def tripletByte (t : Triplet) (i : Fin 3) : Byte :=
  match i with
  | 0 => t.b0
  | 1 => t.b1
  | 2 => t.b2

/-- "A field `(i, M)` of a triplet `t` is set when `(t[i] & M) != 0`" (R9). -/
def tripletFieldSet (f : TripletField) (t : Triplet) : Bool := anyBit (tripletByte t f.idx) f.mask

/-- "A field `(i, M)` of the pair is set when `(pair[i] & M) != 0`" (R200). -/
def pairFieldSet (f : PairField) (s0 s1 : Byte) : Bool :=
  match f.idx with
  | 0 => anyBit s0 f.mask
  | 1 => anyBit s1 f.mask

/-- The press bit, read from its source (R203). -/
def pressSet (c : Cfg) (ks s0 s1 : Byte) : Bool :=
  match c.pressField.src with
  | .keyscan => anyBit ks c.pressField.mask
  | .status0 => anyBit s0 c.pressField.mask
  | .status1 => anyBit s1 c.pressField.mask

/-- The jack-switch-active bit of a status-0 byte (R136, R161). -/
def jackSwitch (c : Cfg) (v : Byte) : Bool := anyBit v c.s0JackSw

/-- "`((s0 & KEYLINE0_MASK) | (s1 & KEYLINE1_MASK)) != 0`": a key or line interrupt (R136). -/
def keyOrLine (c : Cfg) (s0 s1 : Byte) : Bool :=
  ((s0 &&& c.keyLine0Mask) ||| (s1 &&& c.keyLine1Mask)) != 0#8

/-- `PlugSwitchOnly(v)` (R102). -/
def plugSwitchOnly (c : Cfg) (v : Byte) : Bool := (v &&& c.s0EventMask) == c.s0PlugSwEvent

/-! ## Classification (41_jack_state_machine.md R131) -/

/-- The headphone bit of R131. -/
def hpSet (c : Cfg) (t : Triplet) : Bool := tripletFieldSet c.hpField t
/-- The mic/headset bit of R131. -/
def micSet (t : Triplet) : Bool := tripletFieldSet micField t
/-- "Any line-detect bit" of R131. -/
def lineSet (c : Cfg) (t : Triplet) : Bool := tripletFieldSet c.lineField t

/-- `Classify(t)` (R131). -/
def classify (c : Cfg) (t : Triplet) : JackState :=
  if hpSet c t && micSet t then .headset
  else if hpSet c t then .headphone
  else if lineSet c t then .lineOut
  else .none

/-- "Present" states are Headphone, Headset and LineOut; the others are "absent" (R12, R74). -/
def isPresent : JackState → Bool
  | .headphone | .headset | .lineOut => true
  | .none | .unknown => false

/-- The mask pair the rearm writes for a state (R135). -/
def rearmMasks (c : Cfg) (j : JackState) : MaskPair :=
  if isPresent j then c.maskPresent else c.maskPlugOnly

/-! ## The result decode table (42_detection_sequencer.md R170, R171) -/

/-- Row 1 of R78 and the "no mic bias" rows' values: force 0x12, `[0x84, 0x30, 0x03]`. -/
def entry01 : DetectionResult := ⟨0x12, ⟨0x84, 0x30, 0x03⟩, true⟩
/-- Row 2 of R78. -/
def entry09 : DetectionResult := ⟨0x03, ⟨0x8C, 0x30, 0x02⟩, true⟩
/-- Row 3 of R78. -/
def entry19 : DetectionResult := ⟨0x02, ⟨0x8C, 0x30, 0x01⟩, true⟩
/-- Row 5 of R78, "needs mic bias". -/
def entryFailBias : DetectionResult := ⟨0x02, ⟨0x8C, 0x30, 0x01⟩, false⟩
/-- Row 6 of R78, "no mic bias needed". -/
def entryFailNoBias : DetectionResult := ⟨0x12, ⟨0x84, 0x30, 0x03⟩, false⟩

/-- The entry of `FOURTH_CODE` when `res` is its code (R171). -/
def fourthEntry (c : Cfg) (res : Byte) : Option DetectionResult :=
  match c.fourthCode with
  | some (code, e) => if res = code then some e else none
  | none => none

/-- Bit 3 of the result byte, which decides the fallback (R170, 90_conflicts.md C7). -/
def biasBit (res : Byte) : Bool := anyBit res 0x08

/-- `Decode(res)` (R170). -/
def decodeEntry (c : Cfg) (res : Byte) : DetectionResult :=
  if res = 0x01 then entry01
  else if res = 0x09 then entry09
  else if res = 0x19 then entry19
  else match fourthEntry c res with
    | some e => e
    | none => if biasBit res then entryFailBias else entryFailNoBias

/-! ## The key decoder (43_key_decoder.md R201, R202) -/

/-- `AdcMap(ks)`, a 7-bit value (R201). -/
def adcMap (c : Cfg) (ks : Byte) : BitVec 7 :=
  let data := (ks &&& ksDataMask).setWidth 7
  if anyBit ks c.ksRangeMask then data else data + ksOffset

/-- "mcsw or mapped < KEY_T0": the row of Button0 (R202). -/
def isButton0 (c : Cfg) (s0 s1 : Byte) (mapped : BitVec 7) : Bool :=
  pairFieldSet c.mcswField s0 s1 || decide (mapped.toNat < c.keyT0)

/-- "mapped < KEY_T1" (R202). -/
def belowT1 (c : Cfg) (mapped : BitVec 7) : Bool := decide (mapped.toNat < c.keyT1)

/-- The secondary key-interrupt bit (R202). -/
def key2Set (c : Cfg) (s0 s1 : Byte) : Bool := pairFieldSet c.key2Field s0 s1

/-- `DecideButton(s0, s1, mapped)` (R202). -/
def decideButton (c : Cfg) (s0 s1 : Byte) (mapped : BitVec 7) : Option Button :=
  if isButton0 c s0 s1 mapped then some .button0
  else if key2Set c s0 s1 then
    if belowT1 c mapped then some .button1 else some .button2
  else none

/-! ## Registers -/

/-- `ID_OK(v)` (R7). -/
def idMatches (c : Cfg) (v : Byte) : Bool := decide (v ∈ c.idOk)

/-- The volatile registers of 20_memory.md R51 that are not in `VOLATILE_EXTRA`. -/
def volatileBase (c : Cfg) : List Byte :=
  [c.regStatus0, c.regStatus1, c.regStatus2, c.regKeyscan, c.regDetectDone, c.regDetectResult, c.regId]

/-- `volatile(a)` (R51): every address `VOLATILE_EXTRA` lists, an interrupt-mask register too (log 26, DEDUCED). -/
def isVolatile (c : Cfg) (a : Byte) : Bool :=
  decide (a ∈ volatileBase c) || decide (a ∈ c.volatileExtra)

/-- `TEST_START(TEST_VARIANT)` (42_detection_sequencer.md R165). -/
def testStart (c : Cfg) : List StoreOp :=
  match c.testVariant with
  | .v0 => c.testStartV0
  | .v1 => c.testStartV1

/-- The register names of a stimulus script: "a Cfg register name without REG_" (30_encoding.md R83). -/
inductive RegName where
  | status0 | status1 | status2 | irqMask1 | irqMask2 | lvol | rvol | keyscan | force | override
  | enable | detectDone | detectResult | id
  deriving DecidableEq, Repr

/-- The address of a named register (R7). -/
def regAddr (c : Cfg) : RegName → Byte
  | .status0 => c.regStatus0
  | .status1 => c.regStatus1
  | .status2 => c.regStatus2
  | .irqMask1 => c.regIrqMask1
  | .irqMask2 => c.regIrqMask2
  | .lvol => c.regLvol
  | .rvol => c.regRvol
  | .keyscan => c.regKeyscan
  | .force => c.regForce
  | .override => c.regOverride
  | .enable => c.regEnable
  | .detectDone => c.regDetectDone
  | .detectResult => c.regDetectResult
  | .id => c.regId

end Sys2Proof.Machine
end

