-- ==== Sys2Proof/WellFormed.lean ====
section
/-! DEFINITION. Which instructions are well formed: the row of the table really is the row of its
operands. Field widths hold by type. -/

namespace Sys2Proof

open Sys2Proof.Machine in
/-- No known code and not the fourth one: `res` falls to the rows of priority 5 and 6 (30_encoding.md R78). -/
def unknownResult (c : Cfg) (res : Byte) : Bool :=
  decide (res ≠ 0x01) && decide (res ≠ 0x09) && decide (res ≠ 0x19) && (fourthEntry c res).isNone

open Sys2Proof.Machine in
/-- Well-formedness under a configuration, row by row: an `Update`'s value lies under its mask (R72); a
row of a priority table stands only for operands that no earlier row matches (R78, R131, R202). -/
def Instr.wellFormed (c : Cfg) : Instr → Bool
  | .evProbe | .evIrq | .evFire | .evSuspend | .evResume | .evRemove => true
  | .read _ | .write _ _ | .cacheOnly _ | .resync => true
  | .update _ m v => v &&& ~~~m == 0#8
  | .repJack _ | .repButton _ | .repRelease => true
  | .res01 | .res09 | .res19 => true
  | .resFourth res =>
      decide (res ≠ 0x01) && decide (res ≠ 0x09) && decide (res ≠ 0x19) && (fourthEntry c res).isSome
  | .resFailBias res => unknownResult c res && biasBit res
  | .resFailNoBias res => unknownResult c res && !biasBit res
  | .clHeadset t => hpSet c t && micSet t
  | .clHeadphone t => hpSet c t && !micSet t
  | .clLineOut t => !hpSet c t && lineSet c t
  | .clNone t => !hpSet c t && !lineSet c t
  | .keyscan _ => true
  | .btn0 s0 s1 ks => isButton0 c s0 s1 (adcMap c ks)
  | .btn1 s0 s1 ks => !isButton0 c s0 s1 (adcMap c ks) && key2Set c s0 s1 && belowT1 c (adcMap c ks)
  | .btn2 s0 s1 ks => !isButton0 c s0 s1 (adcMap c ks) && key2Set c s0 s1 && !belowT1 c (adcMap c ks)
  | .btnNone s0 s1 ks => !isButton0 c s0 s1 (adcMap c ks) && !key2Set c s0 s1

end Sys2Proof
end

