-- ==== Sys2Proof/Decode.lean ====
section
/-! DEFINITION. The decoder of the seven formats, total on any bytes and rejecting by name
(30_encoding.md R70 to R81), then the encoder and the words of the trace (R72 to R75).
The spec gives multi-byte words as numbers and no byte order (20_memory.md R59); an item holds a word's
bytes lowest first (log 9). -/

namespace Sys2Proof

open Sys2Proof.Machine

/-! ## Codes of the enumerations -/

/-- JackState codes (R74). -/
def jackCode : JackState → Byte
  | .none => 0
  | .unknown => 1
  | .headphone => 2
  | .headset => 3
  | .lineOut => 4

/-- The JackState of a code; codes above 4 are none (R74, R81). -/
def jackOfCode (v : Byte) : Option JackState :=
  if v = 0 then some .none
  else if v = 1 then some .unknown
  else if v = 2 then some .headphone
  else if v = 3 then some .headset
  else if v = 4 then some .lineOut
  else none

/-- Button ids (R75). -/
def buttonCode : Button → Byte
  | .button0 => 0
  | .button1 => 1
  | .button2 => 2

/-- The button of an id; ids above 2 are none (R75, R81). -/
def buttonOfCode (v : Byte) : Option Button :=
  if v = 0 then some .button0
  else if v = 1 then some .button1
  else if v = 2 then some .button2
  else none

/-- `EVENT` codes (R71). -/
def eventCode : Event → Byte
  | .probe => 1
  | .irq => 2
  | .fire => 3
  | .suspend => 4
  | .resume => 5
  | .remove => 6

/-- The event of a code; 0x00 and 0x07 to 0xFF are not events (R71, R81). -/
def eventOfCode (v : Byte) : Option Event :=
  if v = 1 then some .probe
  else if v = 2 then some .irq
  else if v = 3 then some .fire
  else if v = 4 then some .suspend
  else if v = 5 then some .resume
  else if v = 6 then some .remove
  else none

/-! ## The decoder -/

/-- An `EVENT` byte (R71). -/
def decodeEvent (code : Byte) : Except DecodeError Instr :=
  match eventOfCode code with
  | some e => .ok e.instr
  | none => .error (.reservedEvent code)

/-- A `PORT` word from its four bytes: `top` = [31:24], then `addr`, `mask`, `value` (R72). The value
byte of a `Read` is its result and no operand, so it is not looked at (log 10). The value of an
`Update` is "bits under the mask". -/
def decodePort (top addr mask value : Byte) : Except DecodeError Instr :=
  let op := top >>> 4
  let flag := anyBit top 0x01
  if anyBit top 0x0E then .error .portReserved
  else if op = 0 then
    if flag || mask != 0 then .error .portUnusedField else .ok (.read addr)
  else if op = 1 then
    if flag || mask != 0 then .error .portUnusedField else .ok (.write addr value)
  else if op = 2 then
    if flag then .error .portUnusedField else .ok (.update addr mask (value &&& mask))
  else if op = 3 then
    if addr != 0 || mask != 0 || value != 0 then .error .portUnusedField else .ok (.cacheOnly flag)
  else if op = 4 then
    if flag || addr != 0 || mask != 0 || value != 0 then .error .portUnusedField else .ok .resync
  else .error .portOp

/-- A `REPORT` word from its two bytes (R73). -/
def decodeReport (kind value : Byte) : Except DecodeError Instr :=
  if kind = 1 then
    match jackOfCode value with
    | some j => .ok (.repJack j)
    | none => .error .reportValue
  else if kind = 2 then
    match buttonOfCode value with
    | some b => .ok (.repButton b)
    | none => .error .reportValue
  else if kind = 3 then
    if value = 0 then .ok .repRelease else .error .reportValue
  else .error .reportKind

/-- A `RESULT` byte: the first row that matches, in priority order; every byte decodes (R78). -/
def decodeResult (c : Cfg) (res : Byte) : Instr :=
  if res = 0x01 then .res01
  else if res = 0x09 then .res09
  else if res = 0x19 then .res19
  else if (fourthEntry c res).isSome then .resFourth res
  else if biasBit res then .resFailBias res
  else .resFailNoBias res

/-- A `CLASSIFY` word: the first row that matches (R80, R131). -/
def decodeClassify (c : Cfg) (t : Triplet) : Instr :=
  if hpSet c t && micSet t then .clHeadset t
  else if hpSet c t then .clHeadphone t
  else if lineSet c t then .clLineOut t
  else .clNone t

/-- The `BUTTON` rows in priority order (R202). The table gives the format no bits of its own; its
inputs are the status pair and the keyscan byte (log 11). -/
def decodeButton (c : Cfg) (s0 s1 ks : Byte) : Instr :=
  if isButton0 c s0 s1 (adcMap c ks) then .btn0 s0 s1 ks
  else if key2Set c s0 s1 then
    if belowT1 c (adcMap c ks) then .btn1 s0 s1 ks else .btn2 s0 s1 ks
  else .btnNone s0 s1 ks

/-- Decode one item of a format from the front of a list of bytes: the instruction and the bytes left
over, or the reason for the rejection. Total. -/
def decode (c : Cfg) : Format → List Byte → Except DecodeError (Instr × List Byte)
  | .event, code :: rest => (decodeEvent code).map (·, rest)
  | .port, value :: mask :: addr :: top :: rest => (decodePort top addr mask value).map (·, rest)
  | .report, value :: kind :: rest => (decodeReport kind value).map (·, rest)
  | .result, res :: rest => .ok (decodeResult c res, rest)
  | .classify, t2 :: t1 :: t0 :: rest => .ok (decodeClassify c ⟨t0, t1, t2⟩, rest)
  | .keyscan, ks :: rest => .ok (.keyscan ks, rest)
  | .button, ks :: s1 :: s0 :: rest => .ok (decodeButton c s0 s1 ks, rest)
  | _, _ => .error .tooShort

/-- Decode an item: exactly its format's width, no byte more (R70). -/
def decodeItem (c : Cfg) (it : Item) : Except DecodeError Instr :=
  match decode c it.fmt it.bytes with
  | .ok (i, []) => .ok i
  | .ok (_, _ :: _) => .error .trailing
  | .error e => .error e

/-! ## The encoder -/

/-- A format's width in bytes (R70; for `CLASSIFY` and `BUTTON`, log 11). -/
def formatWidth : Format → Nat
  | .event => 1
  | .port => 4
  | .report => 2
  | .result => 1
  | .classify => 3
  | .keyscan => 1
  | .button => 3

/-- The four bytes of a `PORT` word, lowest first (R72). -/
def portBytes (op : Byte) (b : Bool) (addr mask value : Byte) : List Byte :=
  [value, mask, addr, (op <<< 4) ||| (if b then 1 else 0)]

/-- A `REPORT` word's two bytes, lowest first (R73). -/
def reportBytes : Report → List Byte
  | .jack j => [jackCode j, 1]
  | .button b => [buttonCode b, 2]
  | .release => [0, 3]

/-- A traced port operation's four bytes, lowest first (R72). -/
def portOpBytes : PortOp → List Byte
  | .read a v => portBytes 0 false a 0 v
  | .write a v => portBytes 1 false a 0 v
  | .update a m v => portBytes 2 false a m (v &&& m)
  | .cacheOnly b => portBytes 3 b 0 0 0
  | .resync => portBytes 4 false 0 0 0

/-- A triplet's three bytes, lowest first: the table's word is `t0<<16 | t1<<8 | t2`. -/
def tripletBytes (t : Triplet) : List Byte := [t.b2, t.b1, t.b0]

/-- The encoding of an instruction (30_encoding.md R71 to R78). -/
def encode : Instr → Item
  | .evProbe => ⟨.event, [eventCode .probe]⟩
  | .evIrq => ⟨.event, [eventCode .irq]⟩
  | .evFire => ⟨.event, [eventCode .fire]⟩
  | .evSuspend => ⟨.event, [eventCode .suspend]⟩
  | .evResume => ⟨.event, [eventCode .resume]⟩
  | .evRemove => ⟨.event, [eventCode .remove]⟩
  | .read a => ⟨.port, portOpBytes (.read a 0)⟩
  | .write a v => ⟨.port, portOpBytes (.write a v)⟩
  | .update a m v => ⟨.port, portOpBytes (.update a m v)⟩
  | .cacheOnly b => ⟨.port, portOpBytes (.cacheOnly b)⟩
  | .resync => ⟨.port, portOpBytes .resync⟩
  | .repJack j => ⟨.report, reportBytes (.jack j)⟩
  | .repButton b => ⟨.report, reportBytes (.button b)⟩
  | .repRelease => ⟨.report, reportBytes .release⟩
  | .res01 => ⟨.result, [0x01]⟩
  | .res09 => ⟨.result, [0x09]⟩
  | .res19 => ⟨.result, [0x19]⟩
  | .resFourth res => ⟨.result, [res]⟩
  | .resFailBias res => ⟨.result, [res]⟩
  | .resFailNoBias res => ⟨.result, [res]⟩
  | .clHeadset t => ⟨.classify, tripletBytes t⟩
  | .clHeadphone t => ⟨.classify, tripletBytes t⟩
  | .clLineOut t => ⟨.classify, tripletBytes t⟩
  | .clNone t => ⟨.classify, tripletBytes t⟩
  | .keyscan ks => ⟨.keyscan, [ks]⟩
  | .btn0 s0 s1 ks => ⟨.button, [ks, s1, s0]⟩
  | .btn1 s0 s1 ks => ⟨.button, [ks, s1, s0]⟩
  | .btn2 s0 s1 ks => ⟨.button, [ks, s1, s0]⟩
  | .btnNone s0 s1 ks => ⟨.button, [ks, s1, s0]⟩

/-- The number a list of bytes stands for, lowest first: the words 95_test_vectors.md writes in hex. -/
def wordOfBytes : List Byte → Nat
  | [] => 0
  | b :: bs => b.toNat + 256 * wordOfBytes bs

/-! ## Words of spec/opcode_table.json -/

/-- The lowest `n` bytes of a number, lowest first. -/
def bytesOfWord : Nat → Nat → List Byte
  | 0, _ => []
  | n + 1, w => BitVec.ofNat 8 w :: bytesOfWord n (w / 256)

/-- The item a table row's word stands for. The spec tells items apart by their format, which a bare
word does not carry, so the width and the word choose it (log 12): 8 bits are an event when the code is
one (R71) and a result byte otherwise; 16 bits are a report when the kind is one (R73) and otherwise
the lower two bytes of a classification word; 24 bits a classification word; 32 bits a port word. -/
def tableItem (nbits w : Nat) : Item :=
  if nbits = 8 then
    if (eventOfCode (BitVec.ofNat 8 w)).isSome then ⟨.event, bytesOfWord 1 w⟩
    else ⟨.result, bytesOfWord 1 w⟩
  else if nbits = 16 then
    if 1 ≤ w / 256 && w / 256 ≤ 3 then ⟨.report, bytesOfWord 2 w⟩
    else ⟨.classify, bytesOfWord 3 w⟩
  else if nbits = 24 then ⟨.classify, bytesOfWord 3 w⟩
  else ⟨.port, bytesOfWord 4 w⟩

/-- The instruction the decoder reads from a table row's word, under EX, whose field positions the
table's `CLASSIFY` rows use. -/
def decodeTableWord (nbits w : Nat) : Option Instr :=
  match decodeItem Cfg.ex (tableItem nbits w) with
  | .ok i => some i
  | .error _ => none

end Sys2Proof
end

