-- ==== Sys2Proof/Machine/Memory.lean ====
section
/-! DEFINITION. The codec's register file as plain data (10_state.md R29, 20_memory.md R50): lists of
(address, byte) cells in canonical form, and a file of 256 registers whose bits are known or unknown. -/

namespace Sys2Proof.Machine

/-- Cells with strictly rising addresses, none equal to what an unlisted address reads as. -/
abbrev Memory := List Host.Cell

/-- What an unlisted address reads as. A `RegFile` keeps a list of known-bit masks and a list of values;
0x00 in the first is "no bit known", which is what R29 and R272 give every register but the masks. -/
def Memory.unlisted : Byte := 0x00

/-- The byte at an address. -/
def Memory.read : Memory → Nat → Byte
  | [], _ => Memory.unlisted
  | (k, b) :: m, a => if k = a then b else Memory.read m a

/-- Put a cell in front, unless it equals what an unlisted address reads as. -/
def Memory.cons (a : Nat) (v : Byte) (m : Memory) : Memory :=
  if v = Memory.unlisted then m else (a, v) :: m

/-- The memory with `v` at `a`, in canonical form. -/
def Memory.write : Memory → Nat → Byte → Memory
  | [], a, v => Memory.cons a v []
  | (k, b) :: m, a, v =>
    if a < k then Memory.cons a v ((k, b) :: m)
    else if a = k then Memory.cons a v m
    else (k, b) :: Memory.write m a v

/-- Every address of the list is at least `lo`, they rise strictly, and no cell is redundant. -/
def Memory.wfFrom : Nat → Memory → Bool
  | _, [] => true
  | lo, (k, b) :: m => decide (lo ≤ k) && decide (b ≠ Memory.unlisted) && Memory.wfFrom (k + 1) m

/-- The canonical form. -/
def Memory.wf (m : Memory) : Bool := Memory.wfFrom 0 m

/-- `u8 -> (Fin 8 -> Option Bool)` (R29): which bits of each register are known, and their values.
A bit that is not known has value 0 here, so that equal register files are equal data. -/
structure RegFile where
  known : Memory
  value : Memory
  deriving DecidableEq, Repr

/-- No bit of any register known. -/
def RegFile.unknown : RegFile := ⟨[], []⟩

/-- The mask of the known bits of a register. -/
def RegFile.mask (r : RegFile) (a : Byte) : Byte := Memory.read r.known a.toNat

/-- The values of the known bits of a register, 0 elsewhere. -/
def RegFile.bits (r : RegFile) (a : Byte) : Byte := Memory.read r.value a.toNat

/-- "`hw[a]` is known when all 8 bits are known, and then it is read as a u8" (R29). -/
def RegFile.byte (r : RegFile) (a : Byte) : Option Byte :=
  if RegFile.mask r a = 0xFF then some (RegFile.bits r a) else none

/-- One bit, `none` when unknown (R29). -/
def RegFile.bit (r : RegFile) (a : Byte) (i : Fin 8) : Option Bool :=
  if (RegFile.mask r a).getLsbD i then some ((RegFile.bits r a).getLsbD i) else none

/-- Set the bits of `a` under `m` to those of `v`: `[a][b] <- v[b]` for each `b` with `m[b] = 1` (R54). A
whole-byte write is the mask 0xFF. -/
def RegFile.setBits (r : RegFile) (a m v : Byte) : RegFile where
  known := Memory.write r.known a.toNat (RegFile.mask r a ||| m)
  value := Memory.write r.value a.toNat ((RegFile.bits r a &&& ~~~m) ||| (v &&& m))

/-- Canonical form: both lists are canonical, their addresses are bytes, and unknown bits are 0. -/
def RegFile.wf (r : RegFile) : Bool :=
  Memory.wf r.known && Memory.wf r.value
    && r.known.all (fun c => decide (c.1 < 256)) && r.value.all (fun c => decide (c.1 < 256))
    && r.value.all (fun c => c.2 &&& ~~~(Memory.read r.known c.1) == 0#8)

end Sys2Proof.Machine
end

