-- ==== Sys2Proof/Machine/State.lean ====
section
/-! DEFINITION. The state of the machine as plain data: every piece of state of 10_state.md, the outcomes'
reasons, and reset (70_reset_and_hazards.md R270). -/

namespace Sys2Proof.Machine

/-! ## Control points and modes -/

/-- The single-slot work queue; `d` is the delay label (10_state.md R25). -/
inductive WorkSlot where
  | idle
  | pending (d : Nat)
  | running
  | runningPending (d : Nat)
  deriving DecidableEq, Repr

/-- The lifecycle mode (R26). -/
inductive Mode where
  | detached | active | suspended | removed | attachFailed
  deriving DecidableEq, Repr

/-- The interrupt handler's control point (R28). -/
inductive IsrPoint where
  | off | read | mask1 | mask2 | sched
  deriving DecidableEq, Repr

/-- The worker's control point (R30). -/
inductive Label where
  | wIdle
  | wDispatch
  | dEntry
  | dDeb (k : Nat)
  | dNotPresent
  | dStart (j q : Nat)
  | dPoll (j i : Nat)
  | dResult (j : Nat)
  | dRetry (j : Nat)
  | dForce
  | dOvr
  | dEn
  | dReport
  | dSupp
  | dHiz
  | dRecheck
  | dReReport
  | eTest
  | eMuteL
  | eMuteR
  | eDisable
  | eReportNone
  | eReadS1
  | eKeyscan
  | eKeyDecide
  | eUnrecognized
  | rMask1
  | rMask2
  | wEnd
  deriving DecidableEq, Repr

/-- The control point of the host's lifecycle sequences (R37). -/
inductive LifePoint where
  | lIdle
  | aPwrEn
  | aPwrV
  | aId
  | aInit
  | sCancel
  | sHiz
  | sDisable
  | sCache
  | uCache
  | uResync
  | uClk (q : Nat)
  | uState
  | xCancel
  | xJoin
  deriving DecidableEq, Repr

/-- What `DecideButton` gives: a button, or "unrecognized" (43_key_decoder.md R202). -/
inductive KeyChoice where
  | button (b : Button)
  | unrecognized
  deriving DecidableEq, Repr

/-- The worker's locals (R31); `none` is "unwritten". `s0` is the snapshot as `E_TEST` read it (log 7);
`mapped` and `button` are the model's own, the results of R201 and R202 (log 8). -/
structure Locals where
  trip      : Option Triplet
  aborted   : Option Bool
  timedOut  : Option Bool
  res       : Option Byte
  s0        : Option Byte
  s1        : Option Byte
  ks        : Option Byte
  newState  : Option JackState
  nextState : Option JackState
  mapped    : Option (BitVec 7)
  button    : Option KeyChoice
  deriving DecidableEq, Repr

/-- Every local unwritten: before the first run and after `W_END` (R31, R106). -/
def Locals.unwritten : Locals := ⟨none, none, none, none, none, none, none, none, none, none, none⟩

/-! ## The trace -/

/-- A call of the power collaborator (44_lifecycle.md R221). -/
inductive PowerCall where
  | enable
  | setVoltage (target : VoltageLabel)
  deriving DecidableEq, Repr

/-- The kinds of diagnostic record (60_exceptions.md R240). -/
inductive LogKind where
  | ioError (addr : Byte)
  | detectTimeout
  | detectExhausted
  | unrecognized (s0 s1 : Byte)
  | unrecognizedKey (s0 s1 ks : Byte)
  | idMismatch (v : Byte)
  | powerError (call : PowerCall)
  | suppressedSpurious
  | detectQuality (b : Byte)
  deriving DecidableEq, Repr

/-- Whether a transaction was answered by the cache or went over the bus (20_memory.md R52 to R54). -/
inductive Via where
  | cached | bus
  deriving DecidableEq, Repr

/-- An entry of the observable trace (R34). `via` is `none` for `CacheOnly` and `Resync`, whose entries
carry only `ok` (R57, R58). -/
inductive TraceEvent where
  | port (op : PortOp) (ok : Bool) (via : Option Via)
  | rep (r : Report)
  | log (k : LogKind)
  | sched (d : Nat) (accepted : Bool)
  | pwr (call : PowerCall) (ok : Bool)
  deriving DecidableEq, Repr

/-! ## Model faults (60_exceptions.md R259) -/

/-- Block state that can be unwritten (R36, R273). -/
inductive StateName where
  | jack | retry | snap | det
  deriving DecidableEq, Repr

/-- Worker locals that can be unwritten (R31). -/
inductive LocalName where
  | trip | aborted | timedOut | s0 | s1 | ks | newState | nextState
  deriving DecidableEq, Repr

/-- A fault the spec records and never clears (R36, R259). -/
inductive ModelFault where
  | unwrittenState (name : StateName)
  | unwrittenLocal (name : LocalName)
  deriving DecidableEq, Repr

/-! ## The environment's queued answers and the stimulus script (30_encoding.md R83, R84) -/

/-- A queued answer to a read; `v = none` is a failing answer whose byte the script does not give. -/
structure Answer where
  addr : Byte
  ok   : Bool
  v    : Option Byte
  deriving DecidableEq, Repr

/-- A queued failure of a write or update, and whether it took effect. -/
structure WriteFail where
  addr  : Byte
  taken : Bool
  deriving DecidableEq, Repr

/-- The environment. Not scripted: every answer is a free value. Scripted: answers come from the queues
of R83, in order. -/
structure Env where
  scripted : Bool
  reads    : List Answer
  writes   : List WriteFail
  power    : List PowerCall
  deriving DecidableEq, Repr

/-- Which agent steps next: any enabled one (60_exceptions.md R246), or one of the two orders of a script
(R83, R84). -/
inductive Order where
  | free | eager | named
  deriving DecidableEq, Repr

/-- A line of a stimulus script (R83). An event line holds the event's byte (R71). -/
inductive Line where
  | event (code : Byte)
  | irqStar
  | stepIsr
  | stepWorker
  | ans (reg : RegName) (v : Byte) (count : Nat)
  | ansFail (reg : RegName) (v : Option Byte)
  | wfail (reg : RegName) (taken : Bool)
  | idOk
  | idBad
  | pwrFailEnable
  | pwrFailVoltage
  | comment
  deriving DecidableEq, Repr

/-! ## Reasons to stop -/

/-- The machine stops with a fault. -/
inductive Fault where
  /-- Raised by a step that reads register `addr` in a stimulus script when that register's answer queue
  is empty: "a read whose queue is empty makes the script ill-formed (the model is stuck there)" (R83,
  R259). Safe: no claim is made about the script. -/
  | noAnswer (addr : Byte)
  deriving DecidableEq, Repr

/-- No meaning is given. -/
inductive Refusal where
  /-- An instruction that has no meaning in the model yet, by its mnemonic. Raised by `exec` only. Safe. -/
  | notModelled (mnemonic : String)
  /-- Raised by `step` on bytes that are no word of their format (R81). Safe: the spec gives such bytes no
  meaning and calls the script or trace that holds one ill-formed. -/
  | illFormed (reason : DecodeError)
  /-- Raised by `step` while the script still holds a reserved event code: "refused before it runs" (R81,
  R259). Safe. -/
  | reservedEvent (code : Byte)
  /-- Raised by `step` when the configuration breaks a constraint of R7, R63 or R77 (R259; log 24, log 25).
  Safe. -/
  | badConfig
  deriving DecidableEq, Repr

/-! ## State -/

/-- One device instance (60_exceptions.md R256). The fields up to `trace` are the spec's; `env`, `source`,
`draws`, `order`, `script` and `latch` are the model's holders of the environment's answers, the stream its
free values come from and how many are used, the order of agents and the input (log 2 to log 5, log 20). Only
a free value reads `source`: "no instance identifier is visible to the block". -/
structure State where
  cfg        : Cfg
  jack       : Option JackState
  retry      : Option Nat
  ignoreNext : Bool
  snap       : Option Byte
  det        : Option DetectionResult
  slot       : WorkSlot
  mode       : Mode
  cacheOnly  : Bool
  isr        : IsrPoint
  wpc        : Label
  lpc        : LifePoint
  loc        : Locals
  hw         : RegFile
  shadow     : RegFile
  faults     : List ModelFault
  trace      : List TraceEvent
  env        : Env
  source     : Nat
  draws      : Nat
  order      : Order
  script     : List Line
  latch      : Option Item
  deriving DecidableEq, Repr

/-- The codec's registers after its own reset: the two mask registers hold `Cfg.RESET_MASKS`, every other
bit is unknown (R29, R272). -/
def resetHw (c : Cfg) : RegFile :=
  RegFile.setBits (RegFile.setBits RegFile.unknown c.regIrqMask1 0xFF c.resetMasks.m1)
    c.regIrqMask2 0xFF c.resetMasks.m2

/-- The state before `EV_PROBE` (70_reset_and_hazards.md R270) of a block with a given configuration. -/
def State.resetWith (c : Cfg) : State where
  cfg        := c
  jack       := none
  retry      := none
  ignoreNext := false
  snap       := none
  det        := none
  slot       := .idle
  mode       := .detached
  cacheOnly  := false
  isr        := .off
  wpc        := .wIdle
  lpc        := .lIdle
  loc        := Locals.unwritten
  hw         := resetHw c
  shadow     := RegFile.unknown
  faults     := []
  trace      := []
  env        := ⟨false, [], [], []⟩
  source     := 0
  draws      := 0
  order      := .free
  script     := []
  latch      := none

/-- The machine right after reset, with the spec's example configuration EX (log 1). -/
def State.reset : State := State.resetWith Cfg.ex

end Sys2Proof.Machine
end

