-- ==== Sys2Proof/Machine/Flags.lean ====
section
/-! DEFINITION. The block's conditions: there is no condition-code register (10_state.md R32), so these are
the tests over State that decide which steps are enabled (R100, R104, R108, R227, R247), whether a
configuration or a script is refused (R7, R63, R77, R81, R259), and the delay labels of R162 and R166. -/

namespace Sys2Proof.Machine

/-! ## Interrupt gate and accepted events -/

/-- A register known to be 0x00. -/
def knownZero (r : RegFile) (a : Byte) : Bool := RegFile.byte r a == some 0x00

/-- `MaskOpen`: "holds unless both hw[REG_IRQ_MASK1] and hw[REG_IRQ_MASK2] are known to be 0x00" (R100). -/
def maskOpen (s : State) : Bool :=
  !(knownZero s.hw s.cfg.regIrqMask1 && knownZero s.hw s.cfg.regIrqMask2)

/-- Active or Suspended: the modes that accept interrupts, timer starts and removal (R227). -/
def attached (s : State) : Bool :=
  match s.mode with
  | .active | .suspended => true
  | .detached | .removed | .attachFailed => false

/-- "Enabled when" of each event (R100, R104, R220, R224, R225, R226; the table of R227). -/
def eventEnabled (s : State) : Event → Bool
  | .probe => s.mode == .detached && s.lpc == .lIdle
  | .irq => attached s && s.isr == .off && maskOpen s
  | .fire =>
    match s.slot with
    | .pending _ => s.wpc == .wIdle && attached s
    | .idle | .running | .runningPending _ => false
  | .suspend => s.mode == .active && s.lpc == .lIdle
  | .resume => s.mode == .suspended && s.lpc == .lIdle
  | .remove => attached s && s.lpc == .lIdle

/-- `X_JOIN` is "enabled only when st.wpc = W_IDLE and st.isr = Off" (R108). -/
def joinReady (s : State) : Bool := s.wpc == .wIdle && s.isr == .off

/-- Whether the host has a step in its current lifecycle sequence (R108, R246). -/
def hostEnabled (s : State) : Bool :=
  match s.lpc with
  | .lIdle => false
  | .xJoin => joinReady s
  | _ => true

/-- Whether the ISR has a step: it never holds (R253). -/
def isrEnabled (s : State) : Bool := s.isr != .off

/-- Whether the worker has a step: it never holds (R253). -/
def workerEnabled (s : State) : Bool := s.wpc != .wIdle

/-! ## Delay labels (70_reset_and_hazards.md R287): timing only, no effect -/

/-- The wait a worker label stands for, in ms (R162, R166). -/
def waitLabel (c : Cfg) : Label → Option Nat
  | .dDeb _ => some c.tDebounceStepMs
  | .dPoll _ _ => some c.tPollMs
  | _ => none

/-! ## Refused configurations and scripts (R259) -/

/-- Exactly one bit set. -/
def oneBit (m : Byte) : Bool := m != 0 && (m &&& (m - 1)) == 0

/-- Every bit of `a` is a bit of `b`. -/
def subMask (a b : Byte) : Bool := (a &&& ~~~b) == 0

/-- The address a stored operation writes. -/
def storeAddr : StoreOp → Byte
  | .write a _ => a
  | .update a _ _ => a

/-- The registers the block writes through `PortWrite` or `PortUpdate` (R137, R135, R165, R172 to R177,
R224, R225). DEDUCED (log 24): of the two `TEST_START` lists only the one `TEST_VARIANT` selects counts,
since R165 issues no other. -/
def writtenRegs (c : Cfg) : List Byte :=
  [c.regIrqMask1, c.regIrqMask2, c.regLvol, c.regRvol, c.regForce, c.regOverride, c.regEnable]
    ++ (testStart c).map storeAddr ++ c.clockDivWrites.map storeAddr

/-- The place of the press bit: in the keyscan byte it is "the other bit of [7:6]", outside the data field
and the range bit (R77). That a Cfg which breaks this is refused, as one that breaks R7, is DEDUCED (log 25). -/
def pressPlaceOk (c : Cfg) : Bool :=
  match c.pressField.src with
  | .keyscan => !anyBit c.pressField.mask (ksDataMask ||| c.ksRangeMask)
  | .status0 | .status1 => true

/-- The constraints on bit fields of R7, R8 and R77, and no others. DEDUCED (log 31): `LINE_FIELD` may lie in
byte 2, the secondary byte of R133. -/
def fieldsOk (c : Cfg) : Bool :=
  oneBit c.s0JackSw
    && c.s0PlugSwEvent != 0 && subMask c.s0PlugSwEvent c.s0EventMask
    && decide (c.hpField ∈ [⟨0, 0x80⟩, ⟨0, 0x04⟩, ⟨1, 0x20⟩, ⟨1, 0x10⟩])
    && c.lineField.mask != 0
    && oneBit c.mcswField.mask && oneBit c.key2Field.mask && oneBit c.pressField.mask
    && oneBit c.ksRangeMask && !anyBit c.ksRangeMask ksDataMask && pressPlaceOk c
    && oneBit c.doneMask
    && c.muteLMask != 0 && c.muteRMask != 0 && c.enMask != 0 && c.ovrMask != 0

/-- The constraints on mask pairs and numbers of R7. -/
def numbersOk (c : Cfg) : Bool :=
  decide (c.keyT0 ≤ 128) && decide (c.keyT1 ≤ 128)
    && decide (c.maskPlugOnly ≠ ⟨0, 0⟩) && decide (c.maskPresent ≠ ⟨0, 0⟩)
    && subMask c.maskPlugOnly.m1 c.maskPresent.m1 && subMask c.maskPlugOnly.m2 c.maskPresent.m2
    && decide (1 ≤ c.retryBudget) && decide (1 ≤ c.pollCap) && decide (1 ≤ c.debounceSamples)

/-- "`c ∉ {0x01, 0x09, 0x19}` and `e.succeeded = true`" (R171). -/
def fourthOk (c : Cfg) : Bool :=
  match c.fourthCode with
  | none => true
  | some (code, e) => decide (code ∉ [(0x01 : Byte), 0x09, 0x19]) && e.succeeded

/-- The constraints on addresses of R63 and R51, and no others. DEDUCED (log 26): an interrupt-mask register
may stand in `VOLATILE_EXTRA`. DEDUCED (log 28): other registers the block writes may coincide with one, or
with each other, `REG_ENABLE` with `REG_FORCE` among them. -/
def addressesOk (c : Cfg) : Bool :=
  decide (c.regIrqMask1 ≠ c.regIrqMask2)
    && (decide (c.regLvol ≠ c.regRvol) || (c.muteLMask &&& c.muteRMask) == 0)
    && (volatileBase c).all (fun a => decide (a ∉ writtenRegs c) || decide (a ∈ c.volatileExtra))

/-- A configuration the model takes (R7, R63, R77, R171). -/
def cfgOk (c : Cfg) : Bool := fieldsOk c && numbersOk c && fourthOk c && addressesOk c

/-- The first reserved event code of a script (R81). -/
def reservedIn : List Line → Option Byte
  | [] => none
  | .event code :: rest => if (eventOfCode code).isSome then reservedIn rest else some code
  | _ :: rest => reservedIn rest

/-- Why the run is refused, if it is: "a refusal is kept as a mark on the whole run" (R259). -/
def runRefusal (s : State) : Option Refusal :=
  if cfgOk s.cfg then
    match reservedIn s.script with
    | some code => some (.reservedEvent code)
    | none => none
  else some .badConfig

end Sys2Proof.Machine
end

