-- ==== Sys2Proof/Machine/Ops.lean ====
section
/-! DEFINITION. The named operations over the state: the trace (R34), the environment's draws (R33, R52,
R55), the register port (R52 to R58), the work slot (R103, R107), reports (R110, R134), the power
collaborator (R221), the interrupt's entry and return (R249, R250) and the fault set (R259). -/

namespace Sys2Proof.Machine

/-- The outcome of one step. -/
abbrev Result := Host.Outcome State Fault Refusal

/-! ## Trace, control points, faults -/

/-- Append an event to the trace (R34). -/
def emit (e : TraceEvent) (s : State) : State := { s with trace := s.trace ++ [e] }

/-- `Log(kind)`: appended to the trace, no other effect (R252). -/
def log (k : LogKind) (s : State) : State := emit (.log k) s

/-- The code of a diagnostic record's kind (R240). -/
def logCode : LogKind → Byte
  | .ioError _ => 0x01
  | .detectTimeout => 0x02
  | .detectExhausted => 0x03
  | .unrecognized _ _ => 0x04
  | .unrecognizedKey _ _ _ => 0x05
  | .idMismatch _ => 0x06
  | .powerError _ => 0x07
  | .suppressedSpurious => 0x08
  | .detectQuality _ => 0x09

/-- `goto L` of the worker (R10, R30). -/
def goto (l : Label) (s : State) : State := { s with wpc := l }

/-- Move the ISR's control point (R28). -/
def setIsr (p : IsrPoint) (s : State) : State := { s with isr := p }

/-- Move the host's control point (R37). -/
def setLpc (p : LifePoint) (s : State) : State := { s with lpc := p }

/-- Record a fault in the fault set; a set has no repeats, and no step clears it (R36, R259). -/
def recordFault (f : ModelFault) (s : State) : State :=
  if f ∈ s.faults then s else { s with faults := s.faults ++ [f] }

/-- Read state that may be unwritten: reading it unwritten records the fault and the agent's control
point does not move (R36, R31; log 13). -/
def needWritten {α : Type} (x : Option α) (f : ModelFault) (s : State) (k : α → Result) : Result :=
  match x with
  | some v => k v
  | none => .next (recordFault f s)

/-! ## The interrupt (60_exceptions.md R249, R250) -/

/-- Taking the interrupt: nothing is saved and no other agent moves; the handler starts at `Read` (R100,
R249). -/
def takeInterrupt (s : State) : State := setIsr .read s

/-- Returning from the handler: there is nothing to restore, and the masks are not touched (R250). -/
def returnFromInterrupt (s : State) : State := setIsr .off s

/-! ## Environment draws -/

/-- Take the first queued answer for an address. -/
def takeAnswer (a : Byte) : List Answer → Option (Answer × List Answer)
  | [] => none
  | x :: xs =>
    if x.addr = a then some (x, xs)
    else match takeAnswer a xs with
      | some (y, ys) => some (y, x :: ys)
      | none => none

/-- Take the first queued write failure for an address. -/
def takeFail (a : Byte) : List WriteFail → Option (WriteFail × List WriteFail)
  | [] => none
  | x :: xs =>
    if x.addr = a then some (x, xs)
    else match takeFail a xs with
      | some (y, ys) => some (y, x :: ys)
      | none => none

/-- Use one free value: advance the counter (log 2). -/
def advance (s : State) : State := { s with draws := s.draws + 1 }

/-- The environment's answer to a read of `a`: what it says of success and the byte. In a script, the
next queued answer, or `none` when the queue is empty (R83); otherwise a draw (R52). -/
def readAnswer (a : Byte) (s : State) : Option (Bool × Byte × State) :=
  if s.env.scripted then
    match takeAnswer a s.env.reads with
    | some (x, rest) =>
      some (x.ok, x.v.getD (Config.readByte s.source s.draws),
        advance { s with env := { s.env with reads := rest } })
    | none => none
  else some (Config.readOk s.source s.draws, Config.readByte s.source s.draws, advance s)

/-- A transaction's success: it fails only where the configuration lets the environment fail one (R52,
R55). -/
def succeeds (c : Cfg) (answer : Bool) : Bool := answer || !c.ioFail

/-- The environment's outcome of a bus write or update of `a`: whether it succeeded, and whether it took
effect on the codec if it did not (R53, R55). In a script it succeeds unless a `WFAIL` line says otherwise
(R83). -/
def writeAnswer (a : Byte) (s : State) : Bool × Bool × State :=
  if s.env.scripted then
    match takeFail a s.env.writes with
    | some (x, rest) =>
      (succeeds s.cfg false, x.taken, advance { s with env := { s.env with writes := rest } })
    | none => (true, true, s)
  else (succeeds s.cfg (Config.writeOk s.source s.draws), Config.writeTaken s.source s.draws, advance s)

/-! ## The register port (20_memory.md) -/

/-- `shadow[a]` if `a` is not volatile and all its bits are known: what the port answers from its cache
(R52). -/
def cachedByte (s : State) (a : Byte) : Option Byte :=
  if isVolatile s.cfg a then none else RegFile.byte s.shadow a

/-- Set bits of the port's cache, for a non-volatile register only (R53, R54). -/
def cacheBits (a m v : Byte) (s : State) : State :=
  if isVolatile s.cfg a then s else { s with shadow := RegFile.setBits s.shadow a m v }

/-- Set bits of the codec's own register (R53, R54). -/
def codecBits (a m v : Byte) (s : State) : State := { s with hw := RegFile.setBits s.hw a m v }

/-- Append `Log(IoError(a))` unless the transaction succeeded (R55, R242). -/
def logIo (ok : Bool) (a : Byte) (s : State) : State := if ok then s else log (.ioError a) s

/-- `PortRead(a)` (R52): success, the byte, and the state after; `none` when a script has no answer. -/
def portRead (a : Byte) (s : State) : Option (Bool × Byte × State) :=
  match cachedByte s a with
  | some v => some (true, v, emit (.port (.read a v) true (some .cached)) s)
  | none =>
    match readAnswer a s with
    | none => none
    | some (answer, v, s1) =>
      if s.cacheOnly then
        some (false, v, logIo false a (emit (.port (.read a v) false (some .cached)) s1))
      else
        let ok := succeeds s.cfg answer
        let s2 := if ok then cacheBits a 0xFF v s1 else s1
        some (ok, v, logIo ok a (emit (.port (.read a v) ok (some .bus)) s2))

/-- `PortWrite` and `PortUpdate` in one: store the bits of `v` under `m` at `a`, traced as `op` (R53, R54).
A failed store took effect on the codec or did not, and leaves the cache unchanged (R55). Its `ok` is the
trace entry's; no rule uses it otherwise. In cache-only mode the environment is not asked, so a queued `WFAIL`
stays for the next store that goes over the bus (log 27, DEDUCED). -/
def portStore (op : PortOp) (a m v : Byte) (s : State) : State :=
  if s.cacheOnly then
    emit (.port op true (some .cached)) (cacheBits a m v s)
  else
    match writeAnswer a s with
    | (ok, taken, s1) =>
      let s2 := if ok || taken then codecBits a m v s1 else s1
      let s3 := if ok then cacheBits a m v s2 else s2
      logIo ok a (emit (.port op ok (some .bus)) s3)

/-- `PortWrite(a, v)` (R53). -/
def portWrite (a v : Byte) (s : State) : State := portStore (.write a v) a 0xFF v s

/-- `PortUpdate(a, m, v)` (R54). -/
def portUpdate (a m v : Byte) (s : State) : State := portStore (.update a m v) a m v s

/-- Issue an operation of `TEST_START` or `CLOCK_DIV_WRITES` (R165, R225). -/
def portIssue (op : StoreOp) (s : State) : State :=
  match op with
  | .write a v => portWrite a v s
  | .update a m v => portUpdate a m v s

/-- `PortCacheOnly(b)` (R57). -/
def portCacheOnly (b : Bool) (s : State) : State :=
  emit (.port (.cacheOnly b) true none) { s with cacheOnly := b }

/-- One bus write of a resync: the known bits of a non-volatile shadow register go to the codec, or not,
as the environment answers; `acc.1` is whether every write so far succeeded (R58). -/
def resyncCell (acc : Bool × State) (c : Host.Cell) : Bool × State :=
  let a : Byte := BitVec.ofNat 8 c.1
  if isVolatile acc.2.cfg a then acc
  else
    match writeAnswer a acc.2 with
    | (ok, taken, s1) =>
      (acc.1 && ok,
        if ok || taken then codecBits a (RegFile.mask s1.shadow a) (RegFile.bits s1.shadow a) s1 else s1)

/-- `PortResync()` (R58): every non-volatile register with a known shadow bit; one `IoError(0x00)` if any
write failed. The order of the writes inside the step is not observable (I25). -/
def portResync (s : State) : State :=
  match s.shadow.known.foldl resyncCell (true, s) with
  | (ok, s1) => logIo ok 0x00 (emit (.port .resync ok none) s1)

/-! ## The work slot (40_dispatcher.md) -/

/-- The slot after a request, and whether it took it (R103). -/
def slotSchedule (d : Nat) : WorkSlot → WorkSlot × Bool
  | .idle => (.pending d, true)
  | .running => (.runningPending d, true)
  | .pending d' => (.pending d', false)
  | .runningPending d' => (.runningPending d', false)

/-- `Schedule(d)` (R103). -/
def schedule (d : Nat) (s : State) : State :=
  match slotSchedule d s.slot with
  | (slot, accepted) => emit (.sched d accepted) { s with slot := slot }

/-- The slot after a best-effort cancel (R107). -/
def slotCancel : WorkSlot → WorkSlot
  | .pending _ => .idle
  | .runningPending _ => .running
  | .running => .running
  | .idle => .idle

/-- `Cancel()` (R107). -/
def cancel (s : State) : State := { s with slot := slotCancel s.slot }

/-- The slot after the worker's last step (R106). -/
def slotFinish : WorkSlot → WorkSlot
  | .running => .idle
  | .runningPending d => .pending d
  | .idle => .idle
  | .pending d => .pending d

/-! ## Reports (R110, R134) and the power collaborator (R221) -/

/-- `Report(x)` (R110). -/
def report (r : Report) (s : State) : State := emit (.rep r) s

/-- `ReportState(n)` where the stored classification is `j`: report if and only if they differ, then
store (R134). -/
def reportState (j n : JackState) (s : State) : State :=
  let s1 := if n = j then s else report (.jack n) s
  { s1 with jack := some n }

/-- The power collaborator's answer: in a script it succeeds unless a `PWRFAIL` line names the call (R83),
otherwise a draw (R221). -/
def powerAnswer (c : PowerCall) (s : State) : Bool × State :=
  if s.env.scripted then
    if c ∈ s.env.power then (false, { s with env := { s.env with power := s.env.power.erase c } })
    else (true, s)
  else (Config.powerOk s.source s.draws, advance s)

/-- `PowerCall(c)` (R221). -/
def powerCall (c : PowerCall) (s : State) : State :=
  match powerAnswer c s with
  | (ok, s1) =>
    let s2 := emit (.pwr c ok) s1
    if ok then s2 else log (.powerError c) s2

/-! ## Results of the decode tables -/

/-- The latched result byte and its DetectionResult become the local `res` and `st.det` (R167). -/
def latchResult (res : Byte) (e : DetectionResult) (s : State) : State :=
  { s with det := some e, loc := { s.loc with res := some res } }

/-- The triplet being reported and its classification become the locals `trip` and `newState` (R175,
R179). -/
def latchClass (t : Triplet) (j : JackState) (s : State) : State :=
  { s with loc := { s.loc with trip := some t, newState := some j } }

/-- Classify a triplet, write the locals, and run the report step from the stored classification `j`
(R175, R179). -/
def reportClass (j : JackState) (t : Triplet) (s : State) : State :=
  reportState j (classify s.cfg t) (latchClass t (classify s.cfg t) s)

/-- The keyscan byte becomes the local `ks` and its mapped value `mapped` (R136, R201). -/
def latchKeyscan (ks : Byte) (s : State) : State :=
  { s with loc := { s.loc with ks := some ks, mapped := some (adcMap s.cfg ks) } }

/-- What `DecideButton` gives becomes `button`, beside the mapped value it compared (R202). -/
def latchButton (ks : Byte) (b : KeyChoice) (s : State) : State :=
  { s with loc := { s.loc with mapped := some (adcMap s.cfg ks), button := some b } }

end Sys2Proof.Machine
end

