-- ==== Sys2Proof/Machine/Detection.lean ====
section
/-! DEFINITION. The detection sequencer: one definition per label of 42_detection_sequencer.md R160 to R179. -/

namespace Sys2Proof.Machine

/-- `JackSwitch()`, one sample of the jack switch, then go on with it (R161). -/
def sampleJackSwitch (s : State) (k : Bool → State → State) : Result :=
  match portRead s.cfg.regStatus0 s with
  | none => .fault (.noAnswer s.cfg.regStatus0)
  | some (_, v, s1) => .next (k (jackSwitch s.cfg v) s1)

/-- `D_ENTRY` (R160). -/
def dEntry (s : State) : Result :=
  .next (goto (.dDeb 1)
    { s with retry := some s.cfg.retryBudget, loc := { s.loc with aborted := some false } })

/-- `D_DEB(k)` (R162). -/
def dDeb (k : Nat) (s : State) : Result :=
  sampleJackSwitch s fun active =>
    goto (if !active then .dNotPresent
      else if k < s.cfg.debounceSamples then .dDeb (k + 1)
      else .dStart 1 1)

/-- `D_NOTPRESENT` (R163). -/
def dNotPresent (s : State) : Result :=
  .next (goto .dReport { s with loc := { s.loc with aborted := some true, trip := some zeroTriplet } })

/-- `D_START(j, q)` (R165). With no q-th operation (L = 0) it issues nothing. -/
def dStart (j q : Nat) (s : State) : Result :=
  match (testStart s.cfg)[q - 1]? with
  | none => .next (goto (.dPoll j 1) s)
  | some op =>
    .next (goto (if q < (testStart s.cfg).length then .dStart j (q + 1) else .dPoll j 1) (portIssue op s))

/-- `D_POLL(j, i)` (R166). -/
def dPoll (j i : Nat) (s : State) : Result :=
  match portRead s.cfg.regDetectDone s with
  | none => .fault (.noAnswer s.cfg.regDetectDone)
  | some (_, v, s1) =>
    if anyBit v s.cfg.doneMask then
      .next (goto (.dResult j) { s1 with loc := { s1.loc with timedOut := some false } })
    else if i < s.cfg.pollCap then .next (goto (.dPoll j (i + 1)) s1)
    else
      .next (goto (.dResult j)
        (log .detectTimeout { s1 with loc := { s1.loc with timedOut := some true } }))

/-- `D_RESULT(j)` (R167, R170). -/
def dResult (j : Nat) (s : State) : Result :=
  match portRead s.cfg.regDetectResult s with
  | none => .fault (.noAnswer s.cfg.regDetectResult)
  | some (_, res, s1) => .next (goto (.dRetry j) (latchResult res (decodeEntry s.cfg res) s1))

/-- `D_RETRY(j)` (R168): a failed attempt costs one of the budget, which never goes below 0 (R21). -/
def dRetry (j : Nat) (s : State) : Result :=
  needWritten s.loc.timedOut (.unwrittenLocal .timedOut) s fun timedOut =>
  needWritten s.det (.unwrittenState .det) s fun det =>
    if timedOut || !det.succeeded then
      needWritten s.retry (.unwrittenState .retry) s fun r =>
        let s1 := { s with retry := some (r - 1) }
        if 0 < r - 1 then .next (goto (.dStart (j + 1) 1) s1)
        else .next (goto .dForce (log .detectExhausted s1))
    else .next (goto .dForce s)

/-- `D_FORCE` (R172). -/
def dForce (s : State) : Result :=
  needWritten s.det (.unwrittenState .det) s fun det =>
    .next (goto .dOvr (portWrite s.cfg.regForce det.force s))

/-- `D_OVR` (R173). -/
def dOvr (s : State) : Result :=
  .next (goto .dEn (portUpdate s.cfg.regOverride s.cfg.ovrMask 0x00 s))

/-- `D_EN` (R174). -/
def dEn (s : State) : Result :=
  .next (goto .dReport (portUpdate s.cfg.regEnable s.cfg.enMask s.cfg.enMask s))

/-- `D_REPORT` (R175, R133). -/
def dReport (s : State) : Result :=
  needWritten s.loc.aborted (.unwrittenLocal .aborted) s fun aborted =>
  needWritten s.jack (.unwrittenState .jack) s fun j =>
    if aborted then
      needWritten s.loc.trip (.unwrittenLocal .trip) s fun t =>
        .next (goto .dSupp (reportClass j t s))
    else
      needWritten s.det (.unwrittenState .det) s fun det =>
        .next (goto .dSupp (reportClass j det.status (log (.detectQuality det.status.b2) s)))

/-- `D_SUPP` (R176): arm the suppression flag for Headset; never disarm it. -/
def dSupp (s : State) : Result :=
  needWritten s.loc.newState (.unwrittenLocal .newState) s fun n =>
    .next (goto .dHiz (if n = .headset then { s with ignoreNext := true } else s))

/-- `D_HIZ` (R177). -/
def dHiz (s : State) : Result :=
  needWritten s.loc.newState (.unwrittenLocal .newState) s fun n =>
  needWritten s.loc.aborted (.unwrittenLocal .aborted) s fun aborted =>
    .next (goto (if aborted then .rMask1 else .dRecheck)
      (if isPresent n then s else portWrite s.cfg.regForce s.cfg.forceHiz s))

/-- `D_RECHECK` (R178). -/
def dRecheck (s : State) : Result :=
  sampleJackSwitch s fun active => goto (if active then .rMask1 else .dReReport)

/-- `D_REREPORT` (R179): only the reporting step is run again. -/
def dReReport (s : State) : Result :=
  needWritten s.jack (.unwrittenState .jack) s fun j =>
    .next (goto .rMask1 (reportClass j zeroTriplet s))

end Sys2Proof.Machine
end

