-- ==== Sys2Proof/Machine/EventFlow.lean ====
section
/-! DEFINITION. The jack state machine's event flow (41_jack_state_machine.md R136 to R139), the key
decoder's step (43_key_decoder.md R203, R204), the rearm (R135), the worker's first and last step (R105,
R106), and the worker's step as a whole. -/

namespace Sys2Proof.Machine

/-- `W_DISPATCH` (R105). -/
def wDispatch (s : State) : Result :=
  needWritten s.jack (.unwrittenState .jack) s fun j =>
    .next (goto (if isPresent j then .eTest else .dEntry) s)

/-- `E_TEST` (R136): removal or not, by the snapshot. The run keeps the snapshot it tested (R288, log 7). -/
def eTest (s : State) : Result :=
  needWritten s.snap (.unwrittenState .snap) s fun s0 =>
    .next (goto (if jackSwitch s.cfg s0 then .eReadS1 else .eMuteL)
      { s with loc := { s.loc with s0 := some s0 } })

/-- `E_READ_S1` (R136). -/
def eReadS1 (s : State) : Result :=
  needWritten s.loc.s0 (.unwrittenLocal .s0) s fun s0 =>
    match portRead s.cfg.regStatus1 s with
    | none => .fault (.noAnswer s.cfg.regStatus1)
    | some (_, s1, t) =>
      .next (goto (if keyOrLine s.cfg s0 s1 then .eKeyscan else .eUnrecognized)
        { t with loc := { t.loc with s1 := some s1 } })

/-- `E_KEYSCAN` (R136). -/
def eKeyscan (s : State) : Result :=
  match portRead s.cfg.regKeyscan s with
  | none => .fault (.noAnswer s.cfg.regKeyscan)
  | some (_, ks, t) => .next (goto .eKeyDecide { t with loc := { t.loc with ks := some ks } })

/-- What `DecideButton` gives, as the working value `button` (R202). -/
def keyChoice (c : Cfg) (s0 s1 ks : Byte) : KeyChoice :=
  match decideButton c s0 s1 (adcMap c ks) with
  | some b => .button b
  | none => .unrecognized

/-- `KeyDecode(s0, s1, ks)` (R203, R204): a press reports its button or is logged, anything else is a
release. -/
def keyDecode (s0 s1 ks : Byte) (s : State) : State :=
  if pressSet s.cfg ks s0 s1 then
    let b := keyChoice s.cfg s0 s1 ks
    let t := latchButton ks b s
    match b with
    | .button b => report (.button b) t
    | .unrecognized => log (.unrecognizedKey s0 s1 ks) t
  else report .release s

/-- `E_KEY_DECIDE` (R204). -/
def eKeyDecide (s : State) : Result :=
  needWritten s.loc.s0 (.unwrittenLocal .s0) s fun s0 =>
  needWritten s.loc.s1 (.unwrittenLocal .s1) s fun s1 =>
  needWritten s.loc.ks (.unwrittenLocal .ks) s fun ks =>
    .next (goto .rMask1 (keyDecode s0 s1 ks s))

/-- `E_UNRECOGNIZED` (R136, R139). -/
def eUnrecognized (s : State) : Result :=
  needWritten s.loc.s0 (.unwrittenLocal .s0) s fun s0 =>
  needWritten s.loc.s1 (.unwrittenLocal .s1) s fun s1 =>
    .next (goto .rMask1 (log (.unrecognized s0 s1) s))

/-- `E_MUTE_L` (R137). -/
def eMuteL (s : State) : Result :=
  .next (goto .eMuteR (portUpdate s.cfg.regLvol s.cfg.muteLMask s.cfg.muteLMask s))

/-- `E_MUTE_R` (R137). -/
def eMuteR (s : State) : Result :=
  .next (goto .eDisable (portUpdate s.cfg.regRvol s.cfg.muteRMask s.cfg.muteRMask s))

/-- `E_DISABLE` (R137). -/
def eDisable (s : State) : Result :=
  .next (goto .eReportNone (portUpdate s.cfg.regEnable s.cfg.enMask 0x00 s))

/-- `E_REPORT_NONE` (R137, R134). -/
def eReportNone (s : State) : Result :=
  needWritten s.jack (.unwrittenState .jack) s fun j =>
    .next (goto .rMask1 (reportState j .none s))

/-- `R_MASK1` (R135): the pair is chosen here, from `st.jack`. -/
def rMask1 (s : State) : Result :=
  needWritten s.jack (.unwrittenState .jack) s fun j =>
    .next (goto .rMask2
      (portWrite s.cfg.regIrqMask1 (rearmMasks s.cfg j).m1
        { s with loc := { s.loc with nextState := some j } }))

/-- `R_MASK2` (R135): the second write of the same pair. -/
def rMask2 (s : State) : Result :=
  needWritten s.loc.nextState (.unwrittenLocal .nextState) s fun j =>
    .next (goto .wEnd (portWrite s.cfg.regIrqMask2 (rearmMasks s.cfg j).m2 s))

/-- `W_END` (R106): the locals and `st.det` are discarded, and a queued run becomes pending. -/
def wEnd (s : State) : Result :=
  .next (goto .wIdle
    { s with loc := Locals.unwritten, det := none, slot := slotFinish s.slot })

/-- One atomic step of the worker; `W_IDLE` has none (R30). -/
def workerStep (s : State) : Result :=
  match s.wpc with
  | .wIdle => .next s
  | .wDispatch => wDispatch s
  | .dEntry => dEntry s
  | .dDeb k => dDeb k s
  | .dNotPresent => dNotPresent s
  | .dStart j q => dStart j q s
  | .dPoll j i => dPoll j i s
  | .dResult j => dResult j s
  | .dRetry j => dRetry j s
  | .dForce => dForce s
  | .dOvr => dOvr s
  | .dEn => dEn s
  | .dReport => dReport s
  | .dSupp => dSupp s
  | .dHiz => dHiz s
  | .dRecheck => dRecheck s
  | .dReReport => dReReport s
  | .eTest => eTest s
  | .eMuteL => eMuteL s
  | .eMuteR => eMuteR s
  | .eDisable => eDisable s
  | .eReportNone => eReportNone s
  | .eReadS1 => eReadS1 s
  | .eKeyscan => eKeyscan s
  | .eKeyDecide => eKeyDecide s
  | .eUnrecognized => eUnrecognized s
  | .rMask1 => rMask1 s
  | .rMask2 => rMask2 s
  | .wEnd => wEnd s

end Sys2Proof.Machine
end

