-- ==== Sys2Proof/Machine/Isr.lean ====
section
/-! DEFINITION. The interrupt handler `onInterrupt()`: one atomic step per label (40_dispatcher.md R101).
No step waits or retries, and every failed port operation is swallowed after its record (R242, R253). -/

namespace Sys2Proof.Machine

/-- `Read`: the snapshot, the suppression test, and the fast path (R101, R102). -/
def isrRead (s : State) : Result :=
  match portRead s.cfg.regStatus0 s with
  | none => .fault (.noAnswer s.cfg.regStatus0)
  | some (_, v, s1) =>
    let s2 := { s1 with snap := some v, ignoreNext := false }
    if s.ignoreNext && plugSwitchOnly s.cfg v then
      .next (returnFromInterrupt (log .suppressedSpurious s2))
    else .next (setIsr .mask1 s2)

/-- `Mask1` (R101). -/
def isrMask1 (s : State) : Result := .next (setIsr .mask2 (portWrite s.cfg.regIrqMask1 0x00 s))

/-- `Mask2` (R101). -/
def isrMask2 (s : State) : Result := .next (setIsr .sched (portWrite s.cfg.regIrqMask2 0x00 s))

/-- `Sched` (R101, R103). -/
def isrSched (s : State) : Result := .next (returnFromInterrupt (schedule s.cfg.tCoalesceMs s))

/-- One atomic step of the ISR; `Off` has none. -/
def isrStep (s : State) : Result :=
  match s.isr with
  | .off => .next s
  | .read => isrRead s
  | .mask1 => isrMask1 s
  | .mask2 => isrMask2 s
  | .sched => isrSched s

end Sys2Proof.Machine
end

