-- ==== Sys2Proof/Machine/Lifecycle.lean ====
section
/-! DEFINITION. The host's lifecycle sequences: one definition per label of 44_lifecycle.md R220 to R226. -/

namespace Sys2Proof.Machine

/-- `A_PWR_EN` (R220, R221). -/
def aPwrEn (s : State) : Result := .next (setLpc .aPwrV (powerCall .enable s))

/-- `A_PWR_V` (R220, R221). -/
def aPwrV (s : State) : Result := .next (setLpc .aId (powerCall (.setVoltage s.cfg.pwrTarget) s))

/-- `A_ID`: `IdCheck()`; a mismatch or a failed read ends the attach (R222, R245). -/
def aId (s : State) : Result :=
  match portRead s.cfg.regId s with
  | none => .fault (.noAnswer s.cfg.regId)
  | some (ok, v, s1) =>
    if ok && idMatches s.cfg v then .next (setLpc .aInit s1)
    else .next (setLpc .lIdle (log (.idMismatch v) { s1 with mode := .attachFailed }))

/-- `A_INIT`: `AttachInit()` (R223). -/
def aInit (s : State) : Result :=
  .next (setLpc .lIdle (schedule s.cfg.tInitMs
    { s with
      jack := some .unknown
      ignoreNext := false
      snap := none
      det := none
      cacheOnly := false
      mode := .active }))

/-- `S_CANCEL` (R224, R107). -/
def sCancel (s : State) : Result := .next (setLpc .sHiz (cancel s))

/-- `S_HIZ` (R224). -/
def sHiz (s : State) : Result := .next (setLpc .sDisable (portWrite s.cfg.regForce s.cfg.forceHiz s))

/-- `S_DISABLE` (R224). -/
def sDisable (s : State) : Result :=
  .next (setLpc .sCache (portUpdate s.cfg.regEnable s.cfg.enMask 0x00 s))

/-- `S_CACHE` (R224, R57). -/
def sCache (s : State) : Result :=
  .next (setLpc .lIdle { portCacheOnly true s with mode := .suspended })

/-- `U_CACHE` (R225, R57). -/
def uCache (s : State) : Result := .next (setLpc .uResync (portCacheOnly false s))

/-- `U_RESYNC` (R225, R58): then the first clock write, if there is one. -/
def uResync (s : State) : Result :=
  .next (setLpc (if s.cfg.clockDivWrites = [] then .uState else .uClk 1) (portResync s))

/-- `U_CLK(q)` (R225). -/
def uClk (q : Nat) (s : State) : Result :=
  match s.cfg.clockDivWrites[q - 1]? with
  | none => .next (setLpc .uState s)
  | some op =>
    .next (setLpc (if q < s.cfg.clockDivWrites.length then .uClk (q + 1) else .uState) (portIssue op s))

/-- `U_STATE` (R225). -/
def uState (s : State) : Result :=
  .next (setLpc .lIdle (schedule s.cfg.tResumeMs
    { s with jack := some .unknown, ignoreNext := false, mode := .active }))

/-- `X_CANCEL` (R226, R108). -/
def xCancel (s : State) : Result := .next (setLpc .xJoin (cancel s))

/-- The slot after `X_JOIN`: "if st.slot = Pending(d): st.slot <- Idle" (R108). -/
def slotJoin : WorkSlot → WorkSlot
  | .pending _ => .idle
  | .idle => .idle
  | .running => .running
  | .runningPending d => .runningPending d

/-- `X_JOIN` (R226, R108): no step while it is not enabled, the caller is held. -/
def xJoin (s : State) : Result :=
  .next (if joinReady s then setLpc .lIdle { s with slot := slotJoin s.slot, mode := .removed } else s)

/-- One atomic step of the host's current sequence; `L_IDLE` has none (R37). -/
def hostStep (s : State) : Result :=
  match s.lpc with
  | .lIdle => .next s
  | .aPwrEn => aPwrEn s
  | .aPwrV => aPwrV s
  | .aId => aId s
  | .aInit => aInit s
  | .sCancel => sCancel s
  | .sHiz => sHiz s
  | .sDisable => sDisable s
  | .sCache => sCache s
  | .uCache => uCache s
  | .uResync => uResync s
  | .uClk q => uClk q s
  | .uState => uState s
  | .xCancel => xCancel s
  | .xJoin => xJoin s

end Sys2Proof.Machine
end

