-- ==== Sys2Proof/Machine/Agents.lean ====
section
/-! DEFINITION. Which agent steps next (60_exceptions.md R246; 30_encoding.md R83, R84; log 4). -/

namespace Sys2Proof.Machine

/-- What a step of the machine does when no item is offered to it. -/
inductive Move where
  /-- One step of the host's lifecycle sequence. -/
  | host
  /-- One step of the interrupt handler. -/
  | isr
  /-- One step of the worker. -/
  | worker
  /-- The host offers a lifecycle event, the timer fires, or the codec raises an edge. -/
  | event (e : Event)
  /-- The next line of the stimulus script. -/
  | line
  /-- No agent steps: a liberty not taken (R247, R260), or nothing left to do. -/
  | idle
  deriving DecidableEq, Repr

/-- Whether a move is open to the free order: the agent has an enabled step (R246). -/
def moveEnabled (s : State) : Move → Bool
  | .host => hostEnabled s
  | .isr => isrEnabled s
  | .worker => workerEnabled s
  | .event e => eventEnabled s e
  | .idle => true
  | .line => false

/-- The moves of the agents, in no order of priority (R248). -/
def allMoves : List Move :=
  [.idle, .host, .isr, .worker, .event .probe, .event .irq, .event .fire, .event .suspend,
    .event .resume, .event .remove]

/-- The enabled moves. -/
def enabledMoves (s : State) : List Move := allMoves.filter (moveEnabled s)

/-- The enabled move that a number picks. -/
def pickMove (s : State) (n : Nat) : Move := (enabledMoves s).getD (n % (enabledMoves s).length) .idle

/-- "Any enabled agent may step next" (R246): a free value picks one. -/
def freeMove (s : State) : Move := pickMove s (Config.agentChoice s.source s.draws)

/-- The eager order of R84: what has started runs to its end, one agent after the other, before the next
line of the script. DESIGN CHOICE (log 30): where several agents are mid-run, which only a script loaded into
such a block can show, the host's sequence ends first, then the handler, then the worker. -/
def eagerMove (s : State) : Move :=
  if hostEnabled s then .host
  else if isrEnabled s then .isr
  else if workerEnabled s then .worker
  else .line

/-- The order of a script that names its ISR and worker steps (R83): lifecycle sequences still run to
their end, since the grammar names no host step (log 4). -/
def namedMove (s : State) : Move := if hostEnabled s then .host else .line

/-- The move the next step makes, when no item is offered. -/
def nextMove (s : State) : Move :=
  match s.order with
  | .free => freeMove s
  | .eager => eagerMove s
  | .named => namedMove s

/-- The free choice uses one free value; the script's orders use none. -/
def afterChoice (s : State) : State :=
  match s.order with
  | .free => advance s
  | .eager | .named => s

end Sys2Proof.Machine
end

