-- ==== Sys2Proof/Machine/Classes.lean ====
section
/-! DEFINITION. The meanings of the CLASSIFY rows (41_jack_state_machine.md R131): the triplet becomes the
local `trip` and the row's state `newState`, as `D_REPORT` writes them (42_detection_sequencer.md R175). -/

namespace Sys2Proof.Machine

/-- Priority 1: "both headphone-left and mic/headset bits set". -/
def execClHeadset (t : Triplet) (s : State) : Result := .next (latchClass t .headset s)

/-- Priority 2: "headphone bit alone". -/
def execClHeadphone (t : Triplet) (s : State) : Result := .next (latchClass t .headphone s)

/-- Priority 3: "line-detect bits set". -/
def execClLineOut (t : Triplet) (s : State) : Result := .next (latchClass t .lineOut s)

/-- Priority 4: "otherwise". -/
def execClNone (t : Triplet) (s : State) : Result := .next (latchClass t .none s)

end Sys2Proof.Machine
end

