-- ==== Sys2Proof/Machine/Events.lean ====
section
/-! DEFINITION. The meanings of the EVENT rows: the one atomic step that accepts each event. An event with
no step in the current state is ignored: "it is not refused and not a fault" (44_lifecycle.md R227), and a
script counts it as used with no effect (30_encoding.md R84). -/

namespace Sys2Proof.Machine

/-- `EV_PROBE` (44_lifecycle.md R220): `st.lpc <- A_PWR_EN`. -/
def execEvProbe (s : State) : Result :=
  .next (if eventEnabled s .probe then setLpc .aPwrEn s else s)

/-- `EV_IRQ` (40_dispatcher.md R100): `st.isr <- Read`. -/
def execEvIrq (s : State) : Result :=
  .next (if eventEnabled s .irq then takeInterrupt s else s)

/-- `EV_FIRE` (40_dispatcher.md R104): `st.slot <- Running ; st.wpc <- W_DISPATCH`. -/
def execEvFire (s : State) : Result :=
  .next (if eventEnabled s .fire then goto .wDispatch { s with slot := .running } else s)

/-- `EV_SUSPEND` (44_lifecycle.md R224): `st.lpc <- S_CANCEL`. -/
def execEvSuspend (s : State) : Result :=
  .next (if eventEnabled s .suspend then setLpc .sCancel s else s)

/-- `EV_RESUME` (44_lifecycle.md R225): `st.lpc <- U_CACHE`. -/
def execEvResume (s : State) : Result :=
  .next (if eventEnabled s .resume then setLpc .uCache s else s)

/-- `EV_REMOVE` (44_lifecycle.md R226): `st.lpc <- X_CANCEL`. -/
def execEvRemove (s : State) : Result :=
  .next (if eventEnabled s .remove then setLpc .xCancel s else s)

end Sys2Proof.Machine
end

