-- ==== Sys2Proof/Machine/Keys.lean ====
section
/-! DEFINITION. The meanings of the KEYSCAN row and of the BUTTON rows (43_key_decoder.md R201, R202). -/

namespace Sys2Proof.Machine

/-- The keyscan byte, mapped by `AdcMap` (R201). -/
def execKeyscan (ks : Byte) (s : State) : Result := .next (latchKeyscan ks s)

/-- Priority 1: "mcsw or mapped < KEY_T0", Button0 (R202). -/
def execBtn0 (_s0 _s1 ks : Byte) (s : State) : Result := .next (latchButton ks (.button .button0) s)

/-- Priority 2: "key2 and mapped < KEY_T1", Button1 (R202). -/
def execBtn1 (_s0 _s1 ks : Byte) (s : State) : Result := .next (latchButton ks (.button .button1) s)

/-- Priority 3: "key2 and mapped >= KEY_T1", Button2 (R202). -/
def execBtn2 (_s0 _s1 ks : Byte) (s : State) : Result := .next (latchButton ks (.button .button2) s)

/-- Priority 4: "no button: Log(UnrecognizedKey)" (R202, R240). -/
def execBtnNone (s0 s1 ks : Byte) (s : State) : Result :=
  .next (log (.unrecognizedKey s0 s1 ks) (latchButton ks .unrecognized s))

end Sys2Proof.Machine
end

