-- ==== Sys2Proof/Machine/Port.lean ====
section
/-! DEFINITION. The meanings of the PORT rows: one register-port primitive each (20_memory.md R52 to R58). -/

namespace Sys2Proof.Machine

/-- `Read(a)` (R52). The byte it returns stands in the trace; in a script without an answer for `a` there
is no step (R83). -/
def execRead (a : Byte) (s : State) : Result :=
  match portRead a s with
  | some (_, _, s1) => .next s1
  | none => .fault (.noAnswer a)

/-- `Write(a, v)` (R53). -/
def execWrite (a v : Byte) (s : State) : Result := .next (portWrite a v s)

/-- `Update(a, m, v)` (R54). -/
def execUpdate (a m v : Byte) (s : State) : Result := .next (portUpdate a m v s)

/-- `CacheOnly(b)` (R57). -/
def execCacheOnly (b : Bool) (s : State) : Result := .next (portCacheOnly b s)

/-- `Resync` (R58). -/
def execResync (s : State) : Result := .next (portResync s)

end Sys2Proof.Machine
end

