-- ==== Sys2Proof/Machine/Reports.lean ====
section
/-! DEFINITION. The meanings of the REPORT rows: one call of the reporting collaborator, which "never
fails" (40_dispatcher.md R110, 60_exceptions.md R262). -/

namespace Sys2Proof.Machine

/-- `RepJack(j)` (R110). Only the step rules make a jack report idempotent (R134). -/
def execRepJack (j : JackState) (s : State) : Result := .next (report (.jack j) s)

/-- `RepButton(b)` (R110, R203). -/
def execRepButton (b : Button) (s : State) : Result := .next (report (.button b) s)

/-- `RepRelease` (R110, R203). -/
def execRepRelease (s : State) : Result := .next (report .release s)

end Sys2Proof.Machine
end

