-- ==== Sys2Proof/Machine/Results.lean ====
section
/-! DEFINITION. The meanings of the RESULT rows (30_encoding.md R78): the result byte becomes the local
`res` and the row's entry becomes `st.det`, as `D_RESULT` writes them (42_detection_sequencer.md R167). -/

namespace Sys2Proof.Machine

/-- Row 1: 0x01 (R170). -/
def execRes01 (s : State) : Result := .next (latchResult 0x01 entry01 s)

/-- Row 2: 0x09 (R170). -/
def execRes09 (s : State) : Result := .next (latchResult 0x09 entry09 s)

/-- Row 3: 0x19 (R170). -/
def execRes19 (s : State) : Result := .next (latchResult 0x19 entry19 s)

/-- Row 4, the fourth known code (R171). Where `FOURTH_CODE` does not name the byte there is no such row
and the byte decodes as R170 says. -/
def execResFourth (res : Byte) (s : State) : Result :=
  .next (latchResult res (decodeEntry s.cfg res) s)

/-- Row 5: bit 3 set, "needs mic bias" (R170). -/
def execResFailBias (res : Byte) (s : State) : Result := .next (latchResult res entryFailBias s)

/-- Row 6: "no mic bias needed" (R170). -/
def execResFailNoBias (res : Byte) (s : State) : Result := .next (latchResult res entryFailNoBias s)

end Sys2Proof.Machine
end

