-- ==== Sys2Proof/Machine/Dispatch.lean ====
section
/-! DEFINITION. exec: one arm per row of spec/opcode_table.json. -/

namespace Sys2Proof.Machine

def exec (i : Instr) (s : State) : Host.Outcome State Fault Refusal :=
  match i with
  | .evProbe => Sys2Proof.Machine.execEvProbe s
  | .evIrq => Sys2Proof.Machine.execEvIrq s
  | .evFire => Sys2Proof.Machine.execEvFire s
  | .evSuspend => Sys2Proof.Machine.execEvSuspend s
  | .evResume => Sys2Proof.Machine.execEvResume s
  | .evRemove => Sys2Proof.Machine.execEvRemove s
  | .read addr => Sys2Proof.Machine.execRead addr s
  | .write addr value => Sys2Proof.Machine.execWrite addr value s
  | .update addr mask value => Sys2Proof.Machine.execUpdate addr mask value s
  | .cacheOnly b => Sys2Proof.Machine.execCacheOnly b s
  | .resync => Sys2Proof.Machine.execResync s
  | .repJack j => Sys2Proof.Machine.execRepJack j s
  | .repButton b => Sys2Proof.Machine.execRepButton b s
  | .repRelease => Sys2Proof.Machine.execRepRelease s
  | .res01 => Sys2Proof.Machine.execRes01 s
  | .res09 => Sys2Proof.Machine.execRes09 s
  | .res19 => Sys2Proof.Machine.execRes19 s
  | .resFourth res => Sys2Proof.Machine.execResFourth res s
  | .resFailBias res => Sys2Proof.Machine.execResFailBias res s
  | .resFailNoBias res => Sys2Proof.Machine.execResFailNoBias res s
  | .clHeadset t => Sys2Proof.Machine.execClHeadset t s
  | .clHeadphone t => Sys2Proof.Machine.execClHeadphone t s
  | .clLineOut t => Sys2Proof.Machine.execClLineOut t s
  | .clNone t => Sys2Proof.Machine.execClNone t s
  | .keyscan ks => Sys2Proof.Machine.execKeyscan ks s
  | .btn0 s0 s1 ks => Sys2Proof.Machine.execBtn0 s0 s1 ks s
  | .btn1 s0 s1 ks => Sys2Proof.Machine.execBtn1 s0 s1 ks s
  | .btn2 s0 s1 ks => Sys2Proof.Machine.execBtn2 s0 s1 ks s
  | .btnNone s0 s1 ks => Sys2Proof.Machine.execBtnNone s0 s1 ks s

end Sys2Proof.Machine
end

