-- ==== Sys2Proof/Machine/Fetch.lean ====
section
/-! DEFINITION. Fetching: the item in the latch, the lines of a stimulus script (30_encoding.md R83, R84),
and carrying out a move. -/

namespace Sys2Proof.Machine

/-- Decode an item and run the instruction; an ill-formed item is refused by its reason (R81). -/
def runItem (it : Item) (s : State) : Result :=
  match decodeItem s.cfg it with
  | .ok i => exec i s
  | .error e => .refused (.illFormed e)

/-- Queue answers to reads (R83). -/
def queueAnswers (xs : List Answer) (s : State) : State :=
  { s with env := { s.env with reads := s.env.reads ++ xs } }

/-- Queue a write failure (R83). -/
def queueFail (x : WriteFail) (s : State) : State :=
  { s with env := { s.env with writes := s.env.writes ++ [x] } }

/-- Queue a failure of the power collaborator (R83). -/
def queuePower (c : PowerCall) (s : State) : State :=
  { s with env := { s.env with power := s.env.power ++ [c] } }

/-- The answer of `IDOK`: "a byte for which Cfg.ID_OK holds" (R83); the first one listed (log 14). -/
def idOkAnswers (c : Cfg) : List Answer :=
  match c.idOk with
  | v :: _ => [⟨c.regId, true, some v⟩]
  | [] => []

/-- Carry out one line of a script; `s` is the state with the line already taken off (R83, R84). An event
line whose event has no step is used up with no effect. -/
def runLine (l : Line) (s : State) : Result :=
  match l with
  | .event code => runItem ⟨.event, [code]⟩ s
  | .irqStar => .next { s with script := .event (eventCode .irq) :: .event (eventCode .fire) :: s.script }
  | .stepIsr => isrStep s
  | .stepWorker => workerStep s
  | .ans r v n => .next (queueAnswers (List.replicate n ⟨regAddr s.cfg r, true, some v⟩) s)
  | .ansFail r v => .next (queueAnswers [⟨regAddr s.cfg r, false, v⟩] s)
  | .wfail r taken => .next (queueFail ⟨regAddr s.cfg r, taken⟩ s)
  | .idOk => .next (queueAnswers (idOkAnswers s.cfg) s)
  | .idBad => .next (queueAnswers [⟨s.cfg.regId, true, some 0x00⟩] s)
  | .pwrFailEnable => .next (queuePower .enable s)
  | .pwrFailVoltage => .next (queuePower (.setVoltage s.cfg.pwrTarget) s)
  | .comment => .next s

/-- The next line of the script; with none left there is nothing to do. -/
def lineStep (s : State) : Result :=
  match s.script with
  | [] => .next s
  | l :: rest => runLine l { s with script := rest }

/-- Carry out a move. -/
def perform (m : Move) (s : State) : Result :=
  match m with
  | .host => hostStep s
  | .isr => isrStep s
  | .worker => workerStep s
  | .event e => exec e.instr s
  | .line => lineStep s
  | .idle => .next s

/-- A refused run has no step (60_exceptions.md R259): its outcome is the refusal, otherwise `r`. -/
def unlessRefused (s : State) (r : Result) : Result :=
  match runRefusal s with
  | some e => .refused e
  | none => r

/-- The step that runs the offered item: the latch is empty after it (log 5). -/
def itemStep (it : Item) (s : State) : Result := unlessRefused s (runItem it { s with latch := none })

/-- The step of one agent, or of one script line (R246, R83). -/
def agentStep (s : State) : Result := unlessRefused s (perform (nextMove s) (afterChoice s))

/-- Whether a line names a step of one agent. -/
def namesStep : Line → Bool
  | .stepIsr | .stepWorker => true
  | _ => false

/-- Load a stimulus script into a block: answers now come from the script, and the order is the named one
if the script names steps, else the eager one (R83, R84). -/
def loadScript (ls : List Line) (s : State) : State :=
  { s with
    script := ls
    env := ⟨true, [], [], []⟩
    order := if ls.any namesStep then .named else .eager }

/-- Offer an item to the block as its next input (log 5). -/
def offer (it : Item) (s : State) : State := { s with latch := some it }

end Sys2Proof.Machine
end

