-- ==== Sys2Proof/Machine/Step.lean ====
section
/-! DEFINITION. The machine's step, and placing a word where the step fetches next. -/

namespace Sys2Proof.Machine

/-- One step: the item offered to the block, if there is one (log 5); otherwise one atomic step of one
agent (60_exceptions.md R246) or one line of the script (30_encoding.md R83). -/
def step (s : State) : Host.Outcome State Fault Refusal :=
  match s.latch with
  | some it => itemStep it s
  | none => agentStep s

/-- `s` with the instruction of a table row's word in the latch, which the next step runs (log 5, log 12). -/
def State.withFetchWord (s : State) (nbits w : Nat) : State := offer (tableItem nbits w) s

end Sys2Proof.Machine
end

