-- ==== Sys2Proof/Machine/Instances.lean ====
section
/-! DEFINITION. Several device instances (60_exceptions.md R256): each has its own copy of all the state and
its own environment with its own interrupt line, they share nothing, and their steps interleave freely. -/

namespace Sys2Proof.Machine

/-- The instances of a system, in any order. -/
abbrev Instances := List State

/-- Instances with the given configurations at reset. Each takes its free values (the edges of its interrupt
line, the answers of its codec, the order of its agents) from a stream of its own (log 20). -/
def instancesFrom (n : Nat) : List Cfg → Instances
  | [] => []
  | c :: cs => { State.resetWith c with source := n } :: instancesFrom (n + 1) cs

/-- No two instances take their free values from one stream. -/
def ownEnvironments (ss : Instances) : Bool := decide (ss.map State.source).Nodup

/-- One step of the `n`-th instance; an instance that does not exist has no step. -/
def stepInstance (n : Nat) (ss : Instances) : Host.Outcome Instances Fault Refusal :=
  match ss[n]? with
  | none => .next ss
  | some s =>
    match step s with
    | .next t => .next (ss.set n t)
    | .fault r => .fault r
    | .refused r => .refused r

/-- Several instances, and how many turns have been given. -/
structure System where
  instances : Instances
  turns     : Nat
  deriving DecidableEq, Repr

/-- A system at reset. -/
def System.reset (cs : List Cfg) : System := ⟨instancesFrom 0 cs, 0⟩

/-- The system in which the `n`-th instance has had a turn. An instance that has stopped has no step, and the
others go on (R256). -/
def System.turn (n : Nat) (y : System) : System :=
  match stepInstance n y.instances with
  | .next ss => ⟨ss, y.turns + 1⟩
  | .fault _ => { y with turns := y.turns + 1 }
  | .refused _ => { y with turns := y.turns + 1 }

/-- "Their steps interleave freely" (R256): a free value picks the instance that steps next. -/
def System.step (y : System) : System := System.turn (Config.instanceChoice y.turns) y

end Sys2Proof.Machine
end

