-- ==== Sys2Proof/Safety.lean ====
section
/-! DEFINITION. What claims about the block are stated in: final states (60_exceptions.md R261), fair runs
(R260), and the invariants that rule out the states no run reaches. -/

namespace Sys2Proof.Machine

/-! ## The end of a run -/

/-- "A state is final when: st.lpc = L_IDLE, st.isr = Off, st.wpc = W_IDLE, st.slot = Idle, no fault is
recorded, and the run is not refused" (R261). The mode is no condition, so the end of program P7 in
AttachFailed is final (log 29, DEDUCED). -/
def isFinal (s : State) : Bool :=
  s.lpc == .lIdle && s.isr == .off && s.wpc == .wIdle && s.slot == .idle && s.faults.isEmpty
    && (runRefusal s).isNone

/-- "A stimulus script ends when its events are used and the state is final" (R261). -/
def scriptEnded (s : State) : Bool := s.script.isEmpty && s.latch.isNone && isFinal s

/-! ## Fairness (R260) -/

/-- An infinite run of the machine. -/
def IsRun (r : Nat → State) : Prop := ∀ n, step (r n) = .next (r (n + 1))

/-- A move that stays enabled is eventually made. -/
def WeaklyFair (m : Move) (r : Nat → State) : Prop :=
  ∀ n, (∀ k, n ≤ k → moveEnabled (r k) m = true) →
    ∃ k, n ≤ k ∧ (r k).latch = none ∧ nextMove (r k) = m

/-- "Weak fairness holds for the Host, the ISR, the Worker and the Timer" (R260). -/
def FairRun (r : Nat → State) : Prop :=
  IsRun r ∧ WeaklyFair .host r ∧ WeaklyFair .isr r ∧ WeaklyFair .worker r ∧ WeaklyFair (.event .fire) r

/-! ## When a read has an answer -/

/-- Outside a script the environment answers every read (R260, R262); in a script there must be a queued
answer (30_encoding.md R83). -/
def AnswerReady (a : Byte) (s : State) : Prop := s.env.scripted = false ∨ ∃ x ∈ s.env.reads, x.addr = a

/-- The port answers `v` from its cache: a non-volatile register whose shadow is known (20_memory.md R52). -/
def Cached (a v : Byte) (s : State) : Prop :=
  isVolatile s.cfg a = false ∧ RegFile.byte s.shadow a = some v

/-! ## Invariants -/

/-- Both copies of the codec's registers are in canonical form. -/
def regFilesWf (s : State) : Bool := RegFile.wf s.hw && RegFile.wf s.shadow

/-- "No shadow is kept" of a volatile register (20_memory.md R51, R53; 95_test_vectors.md M-6). -/
def NoVolatileShadow (s : State) : Prop :=
  ∀ a : Byte, isVolatile s.cfg a = true → RegFile.mask s.shadow a = 0

/-- A worker run holds the slot (10_state.md R25). -/
def slotHeld : WorkSlot → Bool
  | .running | .runningPending _ => true
  | .idle | .pending _ => false

/-- The modes in which each point of a lifecycle sequence is reached (44_lifecycle.md R220 to R226). -/
def lifeModeOk : LifePoint → Mode → Bool
  | .lIdle, _ => true
  | .aPwrEn, m | .aPwrV, m | .aId, m | .aInit, m => m == .detached
  | .sCancel, m | .sHiz, m | .sDisable, m | .sCache, m => m == .active
  | .uCache, m | .uResync, m | .uClk _, m | .uState, m => m == .suspended
  | .xCancel, m | .xJoin, m => m == .active || m == .suspended

/-- How the control points, the slot and the mode hang together: a worker run exists exactly while the
slot is held (40_dispatcher.md R109); outside Active and Suspended nothing runs and nothing is pending
(44_lifecycle.md R227, R228); lifecycle points lie in their modes; after attach `st.jack` is written
(R223). -/
structure ControlInv (s : State) : Prop where
  singleFlight : s.wpc ≠ .wIdle ↔ slotHeld s.slot = true
  quiet        : attached s = false → s.wpc = .wIdle ∧ s.isr = .off ∧ s.slot = .idle
  lifeMode     : lifeModeOk s.lpc s.mode = true
  jackWritten  : s.mode ≠ .detached → s.mode ≠ .attachFailed → s.jack.isSome = true

/-- How cache-only mode follows the lifecycle: off before attach, in Active mode, and in a resume from its
first label's step on; on otherwise in Suspended mode (44_lifecycle.md R223, R224, R225; 20_memory.md R57). -/
def cacheModeOk (s : State) : Bool :=
  match s.mode, s.lpc with
  | .detached, _ | .active, _ => !s.cacheOnly
  | .suspended, .uResync | .suspended, .uClk _ | .suspended, .uState => !s.cacheOnly
  | .suspended, _ => s.cacheOnly
  | .removed, _ | .attachFailed, _ => true

/-- `st.jack` holds None or Unknown (R12: an absent state). -/
def jackAbsent (s : State) : Bool := s.jack == some .none || s.jack == some .unknown

/-- The state of detection attempt `j`: the budget left is `B - (j - 1)`, at least 1 (42_detection_sequencer.md
R164, R181). -/
def attemptOk (j : Nat) (s : State) : Bool :=
  jackAbsent s && s.loc.aborted == some false && decide (1 ≤ j) &&
    match s.retry with
    | some r => decide (1 ≤ r) && decide (j + r = s.cfg.retryBudget + 1)
    | none => false

/-- What holds at each label of a worker run: the indices are in their ranges (10_state.md R30), every local
the label reads is written (R31, R180, R136), and up to the report of a removal the stored state is not None
(41_jack_state_machine.md R137; only a resume may write it, as Unknown). -/
def labelOk (s : State) : Bool :=
  match s.wpc with
  | .wIdle | .wDispatch => true
  | .dEntry => jackAbsent s
  | .dDeb k =>
    jackAbsent s && s.loc.aborted == some false && s.retry == some s.cfg.retryBudget
      && decide (1 ≤ k) && decide (k ≤ s.cfg.debounceSamples)
  | .dNotPresent => jackAbsent s
  | .dStart j q =>
    attemptOk j s && decide (1 ≤ q) && decide (q ≤ max 1 (testStart s.cfg).length)
  | .dPoll j i => attemptOk j s && decide (1 ≤ i) && decide (i ≤ s.cfg.pollCap)
  | .dResult j => attemptOk j s && s.loc.timedOut.isSome
  | .dRetry j => attemptOk j s && s.loc.timedOut.isSome && s.det.isSome
  | .dForce | .dOvr | .dEn => jackAbsent s && s.loc.aborted == some false && s.det.isSome
  | .dReport =>
    jackAbsent s &&
      ((s.loc.aborted == some true && s.loc.trip.isSome) || (s.loc.aborted == some false && s.det.isSome))
  | .dSupp | .dHiz => s.loc.aborted.isSome && s.loc.newState.isSome
  | .dRecheck | .dReReport => true
  | .eTest | .eMuteL | .eMuteR | .eDisable | .eReportNone => s.jack != some .none
  | .eReadS1 => s.loc.s0.isSome
  | .eKeyscan => s.loc.s0.isSome && s.loc.s1.isSome
  | .eKeyDecide => s.loc.s0.isSome && s.loc.s1.isSome && s.loc.ks.isSome
  | .eUnrecognized => s.loc.s0.isSome && s.loc.s1.isSome
  | .rMask1 => true
  | .rMask2 => s.loc.nextState.isSome
  | .wEnd => true

/-- The invariant of the machine's runs. -/
structure RunInv (s : State) : Prop where
  control : ControlInv s
  label   : labelOk s = true

/-! ## How much of a worker run is left (60_exceptions.md R260; 42_detection_sequencer.md R181) -/

/-- The steps of one detection attempt: its starts, polls, the result read and the retry test (R164). -/
def attemptSteps (c : Cfg) : Nat := max 1 (testStart c).length + c.pollCap + 2

/-- An upper bound on the steps left after attempt `j`'s retry test, that test included. -/
def stepsAfterAttempt (c : Cfg) (j : Nat) : Nat := 12 + (c.retryBudget - j) * attemptSteps c

/-- An upper bound on the worker's own steps until the run in progress has ended. -/
def stepsLeft (s : State) : Nat :=
  let c := s.cfg
  match s.wpc with
  | .wIdle => 0
  | .wDispatch => stepsAfterAttempt c 0 + c.debounceSamples + 2
  | .dEntry => stepsAfterAttempt c 0 + c.debounceSamples + 1
  | .dDeb k => stepsAfterAttempt c 0 + (c.debounceSamples + 1 - k)
  | .dStart j q => stepsAfterAttempt c j + 1 + c.pollCap + (max 1 (testStart c).length + 1 - q)
  | .dPoll j i => stepsAfterAttempt c j + 1 + (c.pollCap + 1 - i)
  | .dResult j => stepsAfterAttempt c j + 1
  | .dRetry j => stepsAfterAttempt c j
  | .dForce => 11
  | .dOvr => 10
  | .dEn | .dNotPresent => 9
  | .dReport => 8
  | .dSupp => 7
  | .dHiz => 6
  | .dRecheck => 5
  | .dReReport => 4
  | .eTest => 8
  | .eMuteL => 7
  | .eMuteR | .eReadS1 => 6
  | .eDisable | .eKeyscan => 5
  | .eReportNone | .eKeyDecide | .eUnrecognized => 4
  | .rMask1 => 3
  | .rMask2 => 2
  | .wEnd => 1

end Sys2Proof.Machine
end

