-- ==== Sys2Proof/Certificates/Slice0/Obligations.lean ====
section
/-! DEFINITION. The statements for the provers, one `def Obligations.<Name> : Prop` each, listed in
OBLIGATIONS.json. -/

open Sys2Proof Sys2Proof.Machine

/-! ## Encoding -/

/-- Decoding the encoding of a well-formed instruction gives it back, for every instruction and operand
(30_encoding.md R71 to R78, R131, R202; the byte order inside an item and the widths and layouts of `CLASSIFY`
and `BUTTON` items are the model's, log 9 and log 11, DESIGN CHOICE). -/
def Obligations.DecodeEncode : Prop :=
  ∀ (c : Cfg) (i : Instr), i.wellFormed c = true → decodeItem c (encode i) = .ok i

/-- What the decoder gives is well formed: no word stands for a row whose operands another row takes. -/
def Obligations.DecodedIsWellFormed : Prop :=
  ∀ (c : Cfg) (it : Item) (i : Instr), decodeItem c it = .ok i → i.wellFormed c = true

/-- A few words written out: the event, port and report words from 95_test_vectors.md section 2, the
`RESULT` byte 0x19 from the table of 30_encoding.md R78, the `CLASSIFY` word 0x8C3002 from the table's
`t0<<16 | t1<<8 | t2` (R80) with the Headset triplet of 41_jack_state_machine.md R131. Which format a bare
word of 8 or 24 bits has is the model's choice (log 12, DESIGN CHOICE). -/
def Obligations.ListedWordsDecode : Prop :=
  decodeTableWord 8 0x02 = some .evIrq ∧
  decodeTableWord 32 0x10040083 = some (.write 0x04 0x83) ∧
  decodeTableWord 32 0x201D8080 = some (.update 0x1D 0x80 0x80) ∧
  decodeTableWord 32 0x31000000 = some (.cacheOnly true) ∧
  decodeTableWord 16 0x0103 = some (.repJack .headset) ∧
  decodeTableWord 8 0x19 = some .res19 ∧
  decodeTableWord 24 0x8C3002 = some (.clHeadset ⟨0x8C, 0x30, 0x02⟩)

/-- Reserved values are rejected by name: `EVENT` codes 0x00 and 0x07 to 0xFF, `PORT` op values 5 to 15
and nonzero reserved bits, `REPORT` kinds other than 1 to 3, JackState codes and button ids that are not
held, and a release value other than 0; every `RESULT` and `KEYSCAN` byte decodes (30_encoding.md R71 to R75, R77,
R78, R81). Which byte of an item is a `PORT` word's top byte or a `REPORT` word's kind is the model's choice (log
9, DESIGN CHOICE: the bytes of an item stand lowest first). -/
def Obligations.ReservedValuesRejected : Prop :=
  (∀ (c : Cfg) (b : Byte), (b = 0 ∨ 7 ≤ b.toNat) →
    decodeItem c ⟨.event, [b]⟩ = .error (.reservedEvent b)) ∧
  (∀ (c : Cfg) (v m a t : Byte), anyBit t 0x0E = true →
    decodeItem c ⟨.port, [v, m, a, t]⟩ = .error .portReserved) ∧
  (∀ (c : Cfg) (v m a t : Byte), anyBit t 0x0E = false → 5 ≤ t.toNat / 16 →
    decodeItem c ⟨.port, [v, m, a, t]⟩ = .error .portOp) ∧
  (∀ (c : Cfg) (v k : Byte), (k = 0 ∨ 4 ≤ k.toNat) →
    decodeItem c ⟨.report, [v, k]⟩ = .error .reportKind) ∧
  (∀ (c : Cfg) (v : Byte), 5 ≤ v.toNat → decodeItem c ⟨.report, [v, 1]⟩ = .error .reportValue) ∧
  (∀ (c : Cfg) (v : Byte), 3 ≤ v.toNat → decodeItem c ⟨.report, [v, 2]⟩ = .error .reportValue) ∧
  (∀ (c : Cfg) (v : Byte), v ≠ 0 → decodeItem c ⟨.report, [v, 3]⟩ = .error .reportValue) ∧
  (∀ (c : Cfg) (b : Byte), ∃ i, decodeItem c ⟨.result, [b]⟩ = .ok i) ∧
  (∀ (c : Cfg) (b : Byte), decodeItem c ⟨.keyscan, [b]⟩ = .ok (.keyscan b))

/-! ## A step runs the decoded instruction -/

/-- When the item in the latch decodes, the step is `exec` of the instruction on the state with the latch
empty; the same of a word that `withFetchWord` places, and of the event line that is next in a script. -/
def Obligations.StepRunsDecoded : Prop :=
  (∀ (s : State) (it : Item) (i : Instr), s.latch = some it → runRefusal s = none →
    decodeItem s.cfg it = .ok i → step s = exec i { s with latch := none }) ∧
  (∀ (s : State) (nbits w : Nat) (i : Instr), runRefusal s = none →
    decodeItem s.cfg (tableItem nbits w) = .ok i →
    step (s.withFetchWord nbits w) = exec i { s with latch := none }) ∧
  (∀ (s : State) (code : Byte) (e : Event) (rest : List Line), s.latch = none → runRefusal s = none →
    s.order = .eager → s.lpc = .lIdle → s.isr = .off → s.wpc = .wIdle →
    s.script = .event code :: rest → eventOfCode code = some e →
    step s = exec e.instr { s with script := rest })

/-- Otherwise the step is one atomic step of the agent whose turn it is, on the state in which a free
choice has used its value (60_exceptions.md R246; 30_encoding.md R83, R84). In the free order the free value
picks: every pick is an enabled move, and every enabled move is the pick of some value. In a script's orders
the host, the handler and the worker are only moved when they have an enabled step; the next line is
started in the eager order only when none of the three can go on, in the named order only when the host
cannot. The free choice, idling and the named order are the model's (log 4, DESIGN CHOICE). -/
def Obligations.StepRunsOneAgent : Prop :=
  (∀ s : State, s.latch = none → runRefusal s = none →
    step s = match nextMove s with
      | .host => hostStep (afterChoice s)
      | .isr => isrStep (afterChoice s)
      | .worker => workerStep (afterChoice s)
      | .event e => exec e.instr (afterChoice s)
      | .line => lineStep (afterChoice s)
      | .idle => .next (afterChoice s)) ∧
  (∀ s : State, s.order = .free → nextMove s = pickMove s (Config.agentChoice s.source s.draws)) ∧
  (∀ (s : State) (n : Nat), moveEnabled s (pickMove s n) = true) ∧
  (∀ (s : State) (m : Move), moveEnabled s m = true → ∃ n, pickMove s n = m) ∧
  (∀ s : State, s.order ≠ .free →
    (nextMove s = .host ∧ hostEnabled s = true) ∨ (nextMove s = .isr ∧ isrEnabled s = true) ∨
    (nextMove s = .worker ∧ workerEnabled s = true) ∨ (nextMove s = .line ∧ hostEnabled s = false)) ∧
  (∀ s : State, s.order = .eager → nextMove s = .line → isrEnabled s = false ∧ workerEnabled s = false) ∧
  (∀ s : State, (hostEnabled s = false → hostStep s = .next s) ∧
    (isrEnabled s = false → isrStep s = .next s) ∧ (workerEnabled s = false → workerStep s = .next s))

/-! ## Events -/

/-- `EV_IRQ` (40_dispatcher.md R100): enabled in Active or Suspended mode with the ISR off and the masks
not both known to be 0x00; it starts the handler and changes nothing else; otherwise it has no step. -/
def Obligations.IrqAccepted : Prop :=
  ∀ s : State,
    let enabled := (s.mode = .active ∨ s.mode = .suspended) ∧ s.isr = .off ∧
      ¬(RegFile.byte s.hw s.cfg.regIrqMask1 = some 0x00 ∧ RegFile.byte s.hw s.cfg.regIrqMask2 = some 0x00)
    (enabled → exec .evIrq s = .next { s with isr := .read }) ∧ (¬enabled → exec .evIrq s = .next s)

/-- `EV_FIRE` (40_dispatcher.md R104). -/
def Obligations.FireStartsWorker : Prop :=
  ∀ s : State,
    let enabled := (∃ d, s.slot = .pending d) ∧ s.wpc = .wIdle ∧ (s.mode = .active ∨ s.mode = .suspended)
    (enabled → exec .evFire s = .next { s with slot := .running, wpc := .wDispatch }) ∧
    (¬enabled → exec .evFire s = .next s)

/-- The lifecycle events: each is accepted in its modes while no sequence runs, and has no step otherwise
(44_lifecycle.md R220, R224, R225, R226, R227). -/
def Obligations.LifecycleEventsAccepted : Prop :=
  ∀ s : State,
    (s.mode = .detached ∧ s.lpc = .lIdle → exec .evProbe s = .next { s with lpc := .aPwrEn }) ∧
    (¬(s.mode = .detached ∧ s.lpc = .lIdle) → exec .evProbe s = .next s) ∧
    (s.mode = .active ∧ s.lpc = .lIdle → exec .evSuspend s = .next { s with lpc := .sCancel }) ∧
    (¬(s.mode = .active ∧ s.lpc = .lIdle) → exec .evSuspend s = .next s) ∧
    (s.mode = .suspended ∧ s.lpc = .lIdle → exec .evResume s = .next { s with lpc := .uCache }) ∧
    (¬(s.mode = .suspended ∧ s.lpc = .lIdle) → exec .evResume s = .next s) ∧
    ((s.mode = .active ∨ s.mode = .suspended) ∧ s.lpc = .lIdle →
      exec .evRemove s = .next { s with lpc := .xCancel }) ∧
    (¬((s.mode = .active ∨ s.mode = .suspended) ∧ s.lpc = .lIdle) → exec .evRemove s = .next s)

/-! ## The register port -/

/-- `PortRead(a)` (20_memory.md R52): from the cache; failing in cache-only mode; over the bus, where it
succeeds unless the environment may and does fail it. Nothing else changes. -/
def Obligations.ReadResult : Prop :=
  ∀ (a : Byte) (s : State),
    (∀ v, Cached a v s → ∃ t, portRead a s = some (true, v, t) ∧ exec (.read a) s = .next t ∧
      t = { s with trace := s.trace ++ [.port (.read a v) true (some .cached)] }) ∧
    ((∀ v, ¬Cached a v s) → AnswerReady a s → s.cacheOnly = true →
      ∃ v t, portRead a s = some (false, v, t) ∧ exec (.read a) s = .next t ∧
        t = { s with
          trace := s.trace ++ [.port (.read a v) false (some .cached), .log (.ioError a)]
          env := t.env
          draws := t.draws }) ∧
    ((∀ v, ¬Cached a v s) → AnswerReady a s → s.cacheOnly = false →
      ∃ ok v t, portRead a s = some (ok, v, t) ∧ exec (.read a) s = .next t ∧
        (s.cfg.ioFail = false → ok = true) ∧
        t = { s with
          shadow := if ok = true ∧ isVolatile s.cfg a = false
            then RegFile.setBits s.shadow a 0xFF v else s.shadow
          trace := s.trace ++ (.port (.read a v) ok (some .bus) :: if ok then [] else [.log (.ioError a)])
          env := t.env
          draws := t.draws })

/-- The environment of a script (30_encoding.md R83; 20_memory.md R53, R54, R55): a read that the cache does not
answer takes the first answer queued for its register, and has no step without one; a write or an update over the
bus succeeds, unless a failure is queued for its register and `IO_FAIL` lets it fail. That the queues stand in the
state, and that a read in cache-only mode, which R52 lets return any byte, takes and needs a queued answer too, is
the model's choice (log 3, DESIGN CHOICE). -/
def Obligations.ScriptAnswers : Prop :=
  ∀ (a : Byte) (s : State), s.env.scripted = true →
    ((∀ v, ¬Cached a v s) → (∀ x ∈ s.env.reads, x.addr ≠ a) →
      portRead a s = none ∧ exec (.read a) s = .fault (.noAnswer a)) ∧
    (∀ (pre post : List Answer) (ok : Bool) (queued : Option Byte), (∀ v, ¬Cached a v s) →
      s.env.reads = pre ++ ⟨a, ok, queued⟩ :: post → (∀ x ∈ pre, x.addr ≠ a) →
      ∃ v t, portRead a s = some (!s.cacheOnly && (ok || !s.cfg.ioFail), v, t) ∧
        (∀ w, queued = some w → v = w) ∧ t.env = { s.env with reads := pre ++ post }) ∧
    (∀ (i : Instr) (op : PortOp) (m v : Byte),
      (i = .write a v ∧ op = .write a v ∧ m = 0xFF) ∨ (i = .update a m v ∧ op = .update a m v) →
      s.cacheOnly = false →
      ((∀ x ∈ s.env.writes, x.addr ≠ a) →
        ∃ t, exec i s = .next t ∧ t.env = s.env ∧ t.trace = s.trace ++ [.port op true (some .bus)] ∧
          t.hw = RegFile.setBits s.hw a m v) ∧
      (∀ (pre post : List WriteFail) (took : Bool),
        s.env.writes = pre ++ ⟨a, took⟩ :: post → (∀ x ∈ pre, x.addr ≠ a) →
        ∃ t, exec i s = .next t ∧ t.env = { s.env with writes := pre ++ post } ∧
          t.trace = s.trace ++ (.port op (!s.cfg.ioFail) (some .bus) ::
            if s.cfg.ioFail then [.log (.ioError a)] else []) ∧
          t.hw = if s.cfg.ioFail = true ∧ took = false then s.hw else RegFile.setBits s.hw a m v))

/-- `PortWrite(a, v)` (20_memory.md R53, R55). -/
def Obligations.WriteResult : Prop :=
  ∀ (a v : Byte) (s : State), exec (.write a v) s = .next (portWrite a v s) ∧
    (s.cacheOnly = true → exec (.write a v) s =
      .next { s with
        shadow := if isVolatile s.cfg a = true then s.shadow else RegFile.setBits s.shadow a 0xFF v
        trace := s.trace ++ [.port (.write a v) true (some .cached)] }) ∧
    (s.cacheOnly = false → ∃ ok took e d, (s.cfg.ioFail = false → ok = true) ∧ exec (.write a v) s =
      .next { s with
        hw := if ok = true ∨ took = true then RegFile.setBits s.hw a 0xFF v else s.hw
        shadow := if ok = true ∧ isVolatile s.cfg a = false
          then RegFile.setBits s.shadow a 0xFF v else s.shadow
        trace := s.trace ++ (.port (.write a v) ok (some .bus) :: if ok then [] else [.log (.ioError a)])
        env := e
        draws := d })

/-- `PortUpdate(a, m, v)` (20_memory.md R54, R55), bit by bit: the bits under the mask become known with
the new value in the copies the rule names, every other bit of every register keeps its value. -/
def Obligations.UpdateResult : Prop :=
  ∀ (a m v : Byte) (s : State), RegFile.wf s.hw = true → RegFile.wf s.shadow = true →
    ∃ (ok took : Bool) (t : State), exec (.update a m v) s = .next t ∧ t = portUpdate a m v s ∧
      (s.cacheOnly = true ∨ s.cfg.ioFail = false → ok = true) ∧
      t = { s with hw := t.hw, shadow := t.shadow, trace := t.trace, env := t.env, draws := t.draws } ∧
      t.trace = s.trace ++ (.port (.update a m v) ok (some (if s.cacheOnly then .cached else .bus))
        :: if ok then [] else [.log (.ioError a)]) ∧
      (∀ (b : Byte) (i : Fin 8), RegFile.bit t.hw b i =
        if b = a ∧ m.getLsbD i = true ∧ s.cacheOnly = false ∧ (ok = true ∨ took = true)
        then some (v.getLsbD i) else RegFile.bit s.hw b i) ∧
      (∀ (b : Byte) (i : Fin 8), RegFile.bit t.shadow b i =
        if b = a ∧ m.getLsbD i = true ∧ ok = true ∧ isVolatile s.cfg a = false
        then some (v.getLsbD i) else RegFile.bit s.shadow b i)

/-- The frame of the port rows that access registers: a store leaves every byte of both copies at every
other address as it was, a read leaves all of `hw` and every other address of `shadow`; no block register
changes (20_memory.md R52, R53, R54). -/
def Obligations.PortFrame : Prop :=
  ∀ (i : Instr) (a : Byte) (s t : State),
    (i = .read a ∨ (∃ v, i = .write a v) ∨ (∃ m v, i = .update a m v)) →
    RegFile.wf s.hw = true → RegFile.wf s.shadow = true → exec i s = .next t →
    t = { s with hw := t.hw, shadow := t.shadow, trace := t.trace, env := t.env, draws := t.draws } ∧
    (i = .read a → t.hw = s.hw) ∧
    (∀ b, b ≠ a → RegFile.mask t.hw b = RegFile.mask s.hw b ∧ RegFile.bits t.hw b = RegFile.bits s.hw b) ∧
    (∀ b, b ≠ a →
      RegFile.mask t.shadow b = RegFile.mask s.shadow b ∧ RegFile.bits t.shadow b = RegFile.bits s.shadow b)

/-- `PortCacheOnly(b)` (20_memory.md R57). -/
def Obligations.CacheOnlyResult : Prop :=
  ∀ (b : Bool) (s : State), exec (.cacheOnly b) s =
    .next { s with cacheOnly := b, trace := s.trace ++ [.port (.cacheOnly b) true none] }

/-- `PortResync()` (20_memory.md R58): each non-volatile register takes every known shadow bit or none of
them, all of them when every write succeeds; nothing else of the codec changes; one `IoError(0x00)` if
any write failed. -/
def Obligations.ResyncResult : Prop :=
  ∀ s : State, RegFile.wf s.hw = true → RegFile.wf s.shadow = true →
    ∃ (ok : Bool) (t : State), exec .resync s = .next t ∧ t = portResync s ∧
      (s.cfg.ioFail = false → ok = true) ∧
      t = { s with hw := t.hw, trace := t.trace, env := t.env, draws := t.draws } ∧
      t.trace = s.trace ++ (.port .resync ok none :: if ok then [] else [.log (.ioError 0x00)]) ∧
      (∀ a : Byte, isVolatile s.cfg a = true → ∀ i, RegFile.bit t.hw a i = RegFile.bit s.hw a i) ∧
      (∀ a : Byte, isVolatile s.cfg a = false →
        (∀ i, RegFile.bit t.hw a i = (RegFile.bit s.shadow a i).or (RegFile.bit s.hw a i)) ∨
        (ok = false ∧ ∀ i, RegFile.bit t.hw a i = RegFile.bit s.hw a i))

/-! ## Reports -/

/-- `Report(x)` (40_dispatcher.md R110) of each kind: one call, recorded in the trace, no block state. -/
def Obligations.ReportCalls : Prop :=
  ∀ s : State,
    (∀ j, exec (.repJack j) s = .next { s with trace := s.trace ++ [.rep (.jack j)] }) ∧
    (∀ b, exec (.repButton b) s = .next { s with trace := s.trace ++ [.rep (.button b)] }) ∧
    exec .repRelease s = .next { s with trace := s.trace ++ [.rep .release] }

/-! ## Decode tables -/

/-- The `RESULT` rows (30_encoding.md R78), run on their own: the entry becomes `st.det` and the byte the
local `res`, as `D_RESULT` writes them. That a row run on its own writes these is the model's reading (log
15). The fourth row stands only for the code that `FOURTH_CODE` names. -/
def Obligations.ResultRows : Prop :=
  ∀ s : State,
    exec .res01 s = .next { s with
      det := some ⟨0x12, ⟨0x84, 0x30, 0x03⟩, true⟩, loc := { s.loc with res := some 0x01 } } ∧
    exec .res09 s = .next { s with
      det := some ⟨0x03, ⟨0x8C, 0x30, 0x02⟩, true⟩, loc := { s.loc with res := some 0x09 } } ∧
    exec .res19 s = .next { s with
      det := some ⟨0x02, ⟨0x8C, 0x30, 0x01⟩, true⟩, loc := { s.loc with res := some 0x19 } } ∧
    (∀ r e, (Instr.resFourth r).wellFormed s.cfg = true → s.cfg.fourthCode = some (r, e) →
      exec (.resFourth r) s = .next { s with det := some e, loc := { s.loc with res := some r } }) ∧
    (∀ r, exec (.resFailBias r) s = .next { s with
      det := some ⟨0x02, ⟨0x8C, 0x30, 0x01⟩, false⟩, loc := { s.loc with res := some r } }) ∧
    (∀ r, exec (.resFailNoBias r) s = .next { s with
      det := some ⟨0x12, ⟨0x84, 0x30, 0x03⟩, false⟩, loc := { s.loc with res := some r } }) ∧
    (∀ r, exec (decodeResult s.cfg r) s = .next { s with
      det := some (decodeEntry s.cfg r), loc := { s.loc with res := some r } })

/-- `Decode(res)` (42_detection_sequencer.md R170; 30_encoding.md R78), and every one of the 256 values
decodes to a well-formed row. -/
def Obligations.ResultByteDecodes : Prop :=
  ∀ (c : Cfg) (r : Byte),
    decodeEntry c r = (
      if r = 0x01 then ⟨0x12, ⟨0x84, 0x30, 0x03⟩, true⟩
      else if r = 0x09 then ⟨0x03, ⟨0x8C, 0x30, 0x02⟩, true⟩
      else if r = 0x19 then ⟨0x02, ⟨0x8C, 0x30, 0x01⟩, true⟩
      else match c.fourthCode with
        | some (code, e) =>
          if r = code then e
          else if r &&& 0x08 ≠ 0 then ⟨0x02, ⟨0x8C, 0x30, 0x01⟩, false⟩
          else ⟨0x12, ⟨0x84, 0x30, 0x03⟩, false⟩
        | none =>
          if r &&& 0x08 ≠ 0 then ⟨0x02, ⟨0x8C, 0x30, 0x01⟩, false⟩
          else ⟨0x12, ⟨0x84, 0x30, 0x03⟩, false⟩) ∧
    ∃ i : Instr, decodeItem c ⟨.result, [r]⟩ = .ok i ∧ i.wellFormed c = true

/-- The `CLASSIFY` rows, run on their own: each stores its triplet and its state as `D_REPORT` does, and a
decoded triplet stores its classification. That a row run on its own writes these is the model's reading
(log 15). -/
def Obligations.ClassifyRows : Prop :=
  ∀ (t : Triplet) (s : State),
    exec (.clHeadset t) s =
      .next { s with loc := { s.loc with trip := some t, newState := some .headset } } ∧
    exec (.clHeadphone t) s =
      .next { s with loc := { s.loc with trip := some t, newState := some .headphone } } ∧
    exec (.clLineOut t) s =
      .next { s with loc := { s.loc with trip := some t, newState := some .lineOut } } ∧
    exec (.clNone t) s =
      .next { s with loc := { s.loc with trip := some t, newState := some .none } } ∧
    exec (decodeClassify s.cfg t) s =
      .next { s with loc := { s.loc with trip := some t, newState := some (classify s.cfg t) } }

/-- `Classify(t)`, in the precedence order of 41_jack_state_machine.md R131. -/
def Obligations.ClassifyPrecedence : Prop :=
  ∀ (c : Cfg) (t : Triplet),
    let byteOf (i : Fin 3) : Byte := if i = 0 then t.b0 else if i = 1 then t.b1 else t.b2
    let hp := byteOf c.hpField.idx &&& c.hpField.mask ≠ 0
    let mic := t.b0 &&& 0x08 ≠ 0
    let line := byteOf c.lineField.idx &&& c.lineField.mask ≠ 0
    classify c t =
      if hp ∧ mic then .headset else if hp then .headphone else if line then .lineOut else .none

/-- The classification of every triplet the block can form without `FOURTH_CODE`, under every configuration that
00_scope.md R8 admits (41_jack_state_machine.md R132). -/
def Obligations.FormableTriplets : Prop :=
  ∀ c : Cfg, c.hpField ∈ [⟨0, 0x80⟩, ⟨0, 0x04⟩, ⟨1, 0x20⟩, ⟨1, 0x10⟩] →
    classify c ⟨0x84, 0x30, 0x03⟩ = .headphone ∧ classify c ⟨0x8C, 0x30, 0x02⟩ = .headset ∧
    classify c ⟨0x8C, 0x30, 0x01⟩ = .headset ∧ classify c ⟨0x00, 0x00, 0x00⟩ = .none

/-! ## Key decoder -/

/-- The `KEYSCAN` and `BUTTON` rows, run on their own: they store the mapped value and the choice in the
model's own working values (log 8, DESIGN CHOICE), `KEYSCAN` stores its byte in `ks`, and the last row logs.
That a row run on its own writes these is the model's reading (log 15, DEDUCED). -/
def Obligations.KeyRows : Prop :=
  ∀ (s0 s1 ks : Byte) (s : State),
    let chosen (b : KeyChoice) : State :=
      { s with loc := { s.loc with mapped := some (adcMap s.cfg ks), button := some b } }
    exec (.keyscan ks) s =
      .next { s with loc := { s.loc with ks := some ks, mapped := some (adcMap s.cfg ks) } } ∧
    exec (.btn0 s0 s1 ks) s = .next (chosen (.button .button0)) ∧
    exec (.btn1 s0 s1 ks) s = .next (chosen (.button .button1)) ∧
    exec (.btn2 s0 s1 ks) s = .next (chosen (.button .button2)) ∧
    exec (.btnNone s0 s1 ks) s =
      .next { chosen .unrecognized with trace := s.trace ++ [.log (.unrecognizedKey s0 s1 ks)] } ∧
    (∀ b, decideButton s.cfg s0 s1 (adcMap s.cfg ks) = some b →
      exec (decodeButton s.cfg s0 s1 ks) s = .next (chosen (.button b)))

/-- `AdcMap(ks)` adds 64 exactly when the range bit is clear and never wraps (43_key_decoder.md R201). -/
def Obligations.AdcMapValue : Prop :=
  ∀ (c : Cfg) (ks : Byte),
    (adcMap c ks).toNat = (ks &&& 0x3F).toNat + (if ks &&& c.ksRangeMask = 0 then 64 else 0) ∧
    (adcMap c ks).toNat ≤ 127

/-- `DecideButton(s0, s1, mapped)` in its order (43_key_decoder.md R202). -/
def Obligations.ButtonPriority : Prop :=
  ∀ (c : Cfg) (s0 s1 : Byte) (mapped : BitVec 7),
    let pairOf (i : Fin 2) : Byte := if i = 0 then s0 else s1
    let mcsw := pairOf c.mcswField.idx &&& c.mcswField.mask ≠ 0
    let key2 := pairOf c.key2Field.idx &&& c.key2Field.mask ≠ 0
    decideButton c s0 s1 mapped =
      if mcsw ∨ mapped.toNat < c.keyT0 then some .button0
      else if key2 then if mapped.toNat < c.keyT1 then some .button1 else some .button2
      else none

/-- Press and release (43_key_decoder.md R203): the `E_KEY_DECIDE` step reports the button of a press,
logs a press with no button, and reports a release when the press bit is clear; then the rearm. That the
step decodes the local `s0` of the run and not `st.snap`, which R204 reads again, is the model's reading
(log 7, DEDUCED), and the working values `mapped` and `button` that it may write are the model's own (log 8,
DESIGN CHOICE). -/
def Obligations.KeyDecodeStep : Prop :=
  ∀ (s : State) (s0 s1 ks : Byte), s.wpc = .eKeyDecide → s.loc.s0 = some s0 → s.loc.s1 = some s1 →
    s.loc.ks = some ks →
    ∃ t, workerStep s = .next t ∧
      t = { s with
        wpc := .rMask1
        trace := t.trace
        loc := { s.loc with mapped := t.loc.mapped, button := t.loc.button } } ∧
      t.trace = s.trace ++ [
        let press := match s.cfg.pressField.src with
          | .keyscan => ks &&& s.cfg.pressField.mask
          | .status0 => s0 &&& s.cfg.pressField.mask
          | .status1 => s1 &&& s.cfg.pressField.mask
        if press ≠ 0 then
          match decideButton s.cfg s0 s1 (adcMap s.cfg ks) with
          | some b => .rep (.button b)
          | none => .log (.unrecognizedKey s0 s1 ks)
        else .rep .release]

/-- `AdcMap` separates the two resistor ranges, and with the switch clear and the secondary key set the
button grows with the mapped value (43_key_decoder.md R205). -/
def Obligations.AdcMapInjectiveButtonMonotone : Prop :=
  (∀ (c : Cfg) (k1 k2 : Byte), adcMap c k1 = adcMap c k2 → k1 &&& 0x3F = k2 &&& 0x3F ∧
    ((k1 &&& c.ksRangeMask = 0) ↔ (k2 &&& c.ksRangeMask = 0))) ∧
  (∀ (c : Cfg) (s0 s1 : Byte) (m1 m2 : BitVec 7) (b1 b2 : Button),
    pairFieldSet c.mcswField s0 s1 = false → key2Set c s0 s1 = true → m1.toNat ≤ m2.toNat →
    decideButton c s0 s1 m1 = some b1 → decideButton c s0 s1 m2 = some b2 →
    (buttonCode b1).toNat ≤ (buttonCode b2).toNat)

/-! ## The interrupt handler and the work slot -/

/-- The ISR's body (40_dispatcher.md R101, R102), label by label; the read and the writes are the port's. -/
def Obligations.HandlerBody : Prop :=
  (∀ (s t : State) (ok : Bool) (v : Byte), s.isr = .read →
    portRead s.cfg.regStatus0 s = some (ok, v, t) →
    (s.ignoreNext = true ∧ v &&& s.cfg.s0EventMask = s.cfg.s0PlugSwEvent → isrStep s =
      .next { t with
        snap := some v, ignoreNext := false, isr := .off, trace := t.trace ++ [.log .suppressedSpurious] }) ∧
    (¬(s.ignoreNext = true ∧ v &&& s.cfg.s0EventMask = s.cfg.s0PlugSwEvent) → isrStep s =
      .next { t with snap := some v, ignoreNext := false, isr := .mask1 })) ∧
  (∀ s : State, s.isr = .mask1 →
    isrStep s = .next { portWrite s.cfg.regIrqMask1 0x00 s with isr := .mask2 }) ∧
  (∀ s : State, s.isr = .mask2 →
    isrStep s = .next { portWrite s.cfg.regIrqMask2 0x00 s with isr := .sched }) ∧
  (∀ s : State, s.isr = .sched →
    isrStep s = .next { schedule s.cfg.tCoalesceMs s with isr := .off })

/-- `Schedule(d)` and `Cancel()` on every value of the slot (40_dispatcher.md R103, R107). -/
def Obligations.SlotTransitions : Prop :=
  ∀ (s : State) (d d' : Nat),
    (s.slot = .idle → schedule d s = { s with slot := .pending d, trace := s.trace ++ [.sched d true] }) ∧
    (s.slot = .running →
      schedule d s = { s with slot := .runningPending d, trace := s.trace ++ [.sched d true] }) ∧
    (s.slot = .pending d' → schedule d s = { s with trace := s.trace ++ [.sched d false] }) ∧
    (s.slot = .runningPending d' → schedule d s = { s with trace := s.trace ++ [.sched d false] }) ∧
    (s.slot = .pending d' → cancel s = { s with slot := .idle }) ∧
    (s.slot = .runningPending d' → cancel s = { s with slot := .running }) ∧
    (s.slot = .running ∨ s.slot = .idle → cancel s = s)

/-- `W_DISPATCH` and `W_END` (40_dispatcher.md R105, R106). That the worker stays at `W_DISPATCH` when
`st.jack` is unwritten, and nothing but the fault set changes, is the model's reading (log 13, DEDUCED). -/
def Obligations.WorkerStartAndEnd : Prop :=
  (∀ s : State, s.wpc = .wDispatch →
    ((s.jack = some .none ∨ s.jack = some .unknown) → workerStep s = .next { s with wpc := .dEntry }) ∧
    ((s.jack = some .headphone ∨ s.jack = some .headset ∨ s.jack = some .lineOut) →
      workerStep s = .next { s with wpc := .eTest }) ∧
    (s.jack = none → workerStep s = .next (recordFault (.unwrittenState .jack) s))) ∧
  (∀ s : State, s.wpc = .wEnd →
    (s.slot = .running → workerStep s =
      .next { s with wpc := .wIdle, slot := .idle, det := none, loc := Locals.unwritten }) ∧
    (∀ d, s.slot = .runningPending d → workerStep s =
      .next { s with wpc := .wIdle, slot := .pending d, det := none, loc := Locals.unwritten }))

/-! ## The detection sequencer -/

/-- Entry, debounce and the "not present" handling (42_detection_sequencer.md R160, R161, R162, R163). -/
def Obligations.DebounceSteps : Prop :=
  (∀ s : State, s.wpc = .dEntry → workerStep s = .next { s with
    retry := some s.cfg.retryBudget, loc := { s.loc with aborted := some false }, wpc := .dDeb 1 }) ∧
  (∀ (s t : State) (k : Nat) (ok : Bool) (v : Byte), s.wpc = .dDeb k →
    portRead s.cfg.regStatus0 s = some (ok, v, t) →
    (v &&& s.cfg.s0JackSw = 0 → workerStep s = .next { t with wpc := .dNotPresent }) ∧
    (v &&& s.cfg.s0JackSw ≠ 0 → k < s.cfg.debounceSamples →
      workerStep s = .next { t with wpc := .dDeb (k + 1) }) ∧
    (v &&& s.cfg.s0JackSw ≠ 0 → ¬k < s.cfg.debounceSamples →
      workerStep s = .next { t with wpc := .dStart 1 1 })) ∧
  (∀ s : State, s.wpc = .dNotPresent → workerStep s = .next { s with
    loc := { s.loc with aborted := some true, trip := some ⟨0x00, 0x00, 0x00⟩ }, wpc := .dReport })

/-- The test start, the bounded poll and the result read (42_detection_sequencer.md R165, R166, R167). -/
def Obligations.AttemptSteps : Prop :=
  (∀ (s : State) (j q : Nat), s.wpc = .dStart j q → 1 ≤ q →
    (testStart s.cfg = [] → workerStep s = .next { s with wpc := .dPoll j 1 }) ∧
    (∀ a v, (testStart s.cfg)[q - 1]? = some (.write a v) → workerStep s = .next { portWrite a v s with
      wpc := if q < (testStart s.cfg).length then .dStart j (q + 1) else .dPoll j 1 }) ∧
    (∀ a m v, (testStart s.cfg)[q - 1]? = some (.update a m v) →
      workerStep s = .next { portUpdate a m v s with
        wpc := if q < (testStart s.cfg).length then .dStart j (q + 1) else .dPoll j 1 })) ∧
  (∀ c : Cfg, (c.testVariant = .v0 → testStart c = c.testStartV0) ∧
    (c.testVariant = .v1 → testStart c = c.testStartV1)) ∧
  (∀ (s t : State) (j i : Nat) (ok : Bool) (v : Byte), s.wpc = .dPoll j i →
    portRead s.cfg.regDetectDone s = some (ok, v, t) →
    (v &&& s.cfg.doneMask ≠ 0 → workerStep s =
      .next { t with loc := { t.loc with timedOut := some false }, wpc := .dResult j }) ∧
    (v &&& s.cfg.doneMask = 0 → i < s.cfg.pollCap → workerStep s = .next { t with wpc := .dPoll j (i + 1) }) ∧
    (v &&& s.cfg.doneMask = 0 → ¬i < s.cfg.pollCap → workerStep s =
      .next { t with
        loc := { t.loc with timedOut := some true }
        trace := t.trace ++ [.log .detectTimeout]
        wpc := .dResult j })) ∧
  (∀ (s t : State) (j : Nat) (ok : Bool) (v : Byte), s.wpc = .dResult j →
    portRead s.cfg.regDetectResult s = some (ok, v, t) → workerStep s =
      .next { t with
        det := some (decodeEntry s.cfg v), loc := { t.loc with res := some v }, wpc := .dRetry j })

/-- `D_RETRY(j)` (42_detection_sequencer.md R168): an attempt fails when it timed out or its decode failed;
a failed one costs one of the budget, and the next attempt starts only while some is left. -/
def Obligations.RetryStep : Prop :=
  ∀ (s : State) (j r : Nat) (timedOut : Bool) (det : DetectionResult), s.wpc = .dRetry j →
    s.loc.timedOut = some timedOut → s.det = some det → s.retry = some r → 1 ≤ r →
    (timedOut = false ∧ det.succeeded = true → workerStep s = .next { s with wpc := .dForce }) ∧
    (¬(timedOut = false ∧ det.succeeded = true) → 2 ≤ r → workerStep s =
      .next { s with retry := some (r - 1), wpc := .dStart (j + 1) 1 }) ∧
    (¬(timedOut = false ∧ det.succeeded = true) → r = 1 → workerStep s =
      .next { s with retry := some 0, trace := s.trace ++ [.log .detectExhausted], wpc := .dForce })

/-- Applying the result (42_detection_sequencer.md R172, R173, R174). -/
def Obligations.ApplyResult : Prop :=
  (∀ (s : State) (d : DetectionResult), s.wpc = .dForce → s.det = some d →
    workerStep s = .next { portWrite s.cfg.regForce d.force s with wpc := .dOvr }) ∧
  (∀ s : State, s.wpc = .dOvr →
    workerStep s = .next { portUpdate s.cfg.regOverride s.cfg.ovrMask 0x00 s with wpc := .dEn }) ∧
  (∀ s : State, s.wpc = .dEn →
    workerStep s = .next { portUpdate s.cfg.regEnable s.cfg.enMask s.cfg.enMask s with wpc := .dReport })

/-- The report step and its repetition (42_detection_sequencer.md R175, R179; 41_jack_state_machine.md R133,
R134): a report is emitted if and only if the classification differs from the stored one. -/
def Obligations.DetectionReports : Prop :=
  (∀ (s : State) (j : JackState) (d : DetectionResult), s.wpc = .dReport → s.jack = some j →
    s.loc.aborted = some false → s.det = some d →
    workerStep s =
      .next { s with
        jack := some (classify s.cfg d.status)
        loc := { s.loc with trip := some d.status, newState := some (classify s.cfg d.status) }
        trace := s.trace ++ (.log (.detectQuality d.status.b2) ::
          if classify s.cfg d.status = j then [] else [.rep (.jack (classify s.cfg d.status))])
        wpc := .dSupp }) ∧
  (∀ (s : State) (j : JackState) (t : Triplet), s.wpc = .dReport → s.jack = some j →
    s.loc.aborted = some true → s.loc.trip = some t →
    workerStep s =
      .next { s with
        jack := some (classify s.cfg t)
        loc := { s.loc with newState := some (classify s.cfg t) }
        trace := s.trace ++ if classify s.cfg t = j then [] else [.rep (.jack (classify s.cfg t))]
        wpc := .dSupp }) ∧
  (∀ (s : State) (j : JackState), s.wpc = .dReReport → s.jack = some j →
    workerStep s =
      .next { s with
        jack := some .none
        loc := { s.loc with trip := some ⟨0x00, 0x00, 0x00⟩, newState := some .none }
        trace := s.trace ++ if j = .none then [] else [.rep (.jack .none)]
        wpc := .rMask1 })

/-- Suppression, high impedance and the recheck (42_detection_sequencer.md R176, R177, R178). -/
def Obligations.DetectionAftermath : Prop :=
  (∀ (s : State) (n : JackState), s.wpc = .dSupp → s.loc.newState = some n → workerStep s =
    .next { s with ignoreNext := if n = .headset then true else s.ignoreNext, wpc := .dHiz }) ∧
  (∀ (s : State) (n : JackState) (aborted : Bool), s.wpc = .dHiz → s.loc.newState = some n →
    s.loc.aborted = some aborted →
    (n = .none ∨ n = .unknown → workerStep s = .next { portWrite s.cfg.regForce s.cfg.forceHiz s with
      wpc := if aborted then .rMask1 else .dRecheck }) ∧
    (¬(n = .none ∨ n = .unknown) → workerStep s =
      .next { s with wpc := if aborted then .rMask1 else .dRecheck })) ∧
  (∀ (s t : State) (ok : Bool) (v : Byte), s.wpc = .dRecheck →
    portRead s.cfg.regStatus0 s = some (ok, v, t) →
    workerStep s = .next { t with wpc := if v &&& s.cfg.s0JackSw = 0 then .dReReport else .rMask1 })

/-! ## The event flow and the rearm -/

/-- The event flow's tests (41_jack_state_machine.md R136, R139): removal by the snapshot, then a key or line
interrupt, then an unrecognized one. That the run keeps the snapshot it tested in a local is the model's
reading (log 7, DEDUCED), and so is that the worker stays at `E_TEST` when there is no snapshot, with nothing
but the fault set changed (log 13, DEDUCED). -/
def Obligations.EventFlowSteps : Prop :=
  (∀ (s : State) (v : Byte), s.wpc = .eTest → s.snap = some v → workerStep s =
    .next { s with
      loc := { s.loc with s0 := some v }
      wpc := if v &&& s.cfg.s0JackSw = 0 then .eMuteL else .eReadS1 }) ∧
  (∀ s : State, s.wpc = .eTest → s.snap = none →
    workerStep s = .next (recordFault (.unwrittenState .snap) s)) ∧
  (∀ (s t : State) (v w : Byte) (ok : Bool), s.wpc = .eReadS1 → s.loc.s0 = some v →
    portRead s.cfg.regStatus1 s = some (ok, w, t) → workerStep s =
      .next { t with
        loc := { t.loc with s1 := some w }
        wpc := if (v &&& s.cfg.keyLine0Mask) ||| (w &&& s.cfg.keyLine1Mask) = 0
          then .eUnrecognized else .eKeyscan }) ∧
  (∀ (s t : State) (v : Byte) (ok : Bool), s.wpc = .eKeyscan →
    portRead s.cfg.regKeyscan s = some (ok, v, t) →
    workerStep s = .next { t with loc := { t.loc with ks := some v }, wpc := .eKeyDecide }) ∧
  (∀ (s : State) (v w : Byte), s.wpc = .eUnrecognized → s.loc.s0 = some v → s.loc.s1 = some w →
    workerStep s = .next { s with trace := s.trace ++ [.log (.unrecognized v w)], wpc := .rMask1 })

/-- Removal (41_jack_state_machine.md R137): mute both channels, disable the output stage, store None and
report it once, then the rearm. In every state of the run invariant the report is made: up to it the stored
state is not None. -/
def Obligations.RemovalSteps : Prop :=
  (∀ s : State, s.wpc = .eMuteL → workerStep s =
    .next { portUpdate s.cfg.regLvol s.cfg.muteLMask s.cfg.muteLMask s with wpc := .eMuteR }) ∧
  (∀ s : State, s.wpc = .eMuteR → workerStep s =
    .next { portUpdate s.cfg.regRvol s.cfg.muteRMask s.cfg.muteRMask s with wpc := .eDisable }) ∧
  (∀ s : State, s.wpc = .eDisable → workerStep s =
    .next { portUpdate s.cfg.regEnable s.cfg.enMask 0x00 s with wpc := .eReportNone }) ∧
  (∀ (s : State) (j : JackState), s.wpc = .eReportNone → s.jack = some j → workerStep s =
    .next { s with
      jack := some .none
      trace := s.trace ++ if j = .none then [] else [.rep (.jack .none)]
      wpc := .rMask1 }) ∧
  (∀ s : State, RunInv s → s.wpc = .eReportNone → workerStep s =
    .next { s with jack := some .none, trace := s.trace ++ [.rep (.jack .none)], wpc := .rMask1 })

/-- The rearm (41_jack_state_machine.md R135): both writes use the pair chosen at `R_MASK1`. -/
def Obligations.RearmWrites : Prop :=
  (∀ (s : State) (j : JackState), s.wpc = .rMask1 → s.jack = some j →
    ∀ m : MaskPair, m = (if j = .none ∨ j = .unknown then s.cfg.maskPlugOnly else s.cfg.maskPresent) →
    workerStep s =
      .next { portWrite s.cfg.regIrqMask1 m.m1 { s with loc := { s.loc with nextState := some j } } with
        wpc := .rMask2 }) ∧
  (∀ (s : State) (j : JackState), s.wpc = .rMask2 → s.loc.nextState = some j →
    ∀ m : MaskPair, m = (if j = .none ∨ j = .unknown then s.cfg.maskPlugOnly else s.cfg.maskPresent) →
    workerStep s = .next { portWrite s.cfg.regIrqMask2 m.m2 s with wpc := .wEnd })

/-- The two rearm steps outside cache-only mode, whether or not the environment may fail a write: each makes
one traced write, which succeeds unless `IO_FAIL`; when both succeed, the hardware masks equal the pair of the
state and the interrupt gate is open (41_jack_state_machine.md R135, R150; 90 C13). -/
def Obligations.RearmOpensGate : Prop :=
  ∀ (s : State) (j : JackState), cfgOk s.cfg = true → RegFile.wf s.hw = true → s.cacheOnly = false →
    s.wpc = .rMask1 → s.jack = some j →
    ∃ t u ok1 ok2, workerStep s = .next t ∧ workerStep t = .next u ∧ u.wpc = .wEnd ∧ u.cfg = s.cfg ∧
      t.trace[s.trace.length]? =
        some (.port (.write s.cfg.regIrqMask1 (rearmMasks s.cfg j).m1) ok1 (some .bus)) ∧
      u.trace[t.trace.length]? =
        some (.port (.write s.cfg.regIrqMask2 (rearmMasks s.cfg j).m2) ok2 (some .bus)) ∧
      (s.cfg.ioFail = false → ok1 = true ∧ ok2 = true) ∧
      (ok1 = true ∧ ok2 = true →
        RegFile.byte u.hw u.cfg.regIrqMask1 = some (rearmMasks u.cfg j).m1 ∧
        RegFile.byte u.hw u.cfg.regIrqMask2 = some (rearmMasks u.cfg j).m2 ∧ maskOpen u = true)

/-- Every worker run ends with exactly one rearm: `W_END` is entered only from `R_MASK2`, and `R_MASK2`
only from `R_MASK1` (41_jack_state_machine.md R150; 40_dispatcher.md R106). -/
def Obligations.RunEndsWithRearm : Prop :=
  ∀ s t : State, step s = .next t →
    (t.wpc = .wEnd → s.wpc ≠ .wEnd → s.wpc = .rMask2) ∧
    (t.wpc = .rMask2 → s.wpc ≠ .rMask2 → s.wpc = .rMask1)

/-! ## Lifecycle -/

/-- The attach sequence (44_lifecycle.md R220, R221, R222, R223). -/
def Obligations.AttachSteps : Prop :=
  (∀ s : State, s.mode = .detached → s.lpc = .lIdle → exec .evProbe s = .next { s with lpc := .aPwrEn }) ∧
  (∀ s : State, s.lpc = .aPwrEn → ∃ ok e d, hostStep s = .next { s with
    trace := s.trace ++ (.pwr .enable ok :: if ok then [] else [.log (.powerError .enable)])
    env := e, draws := d, lpc := .aPwrV }) ∧
  (∀ s : State, s.lpc = .aPwrV → ∃ ok e d, hostStep s = .next { s with
    trace := s.trace ++ (.pwr (.setVoltage s.cfg.pwrTarget) ok ::
      if ok then [] else [.log (.powerError (.setVoltage s.cfg.pwrTarget))])
    env := e, draws := d, lpc := .aId }) ∧
  (∀ (s t : State) (ok : Bool) (v : Byte), s.lpc = .aId → portRead s.cfg.regId s = some (ok, v, t) →
    (ok = true ∧ v ∈ s.cfg.idOk → hostStep s = .next { t with lpc := .aInit }) ∧
    (¬(ok = true ∧ v ∈ s.cfg.idOk) → hostStep s = .next { t with
      trace := t.trace ++ [.log (.idMismatch v)], mode := .attachFailed, lpc := .lIdle })) ∧
  (∀ s : State, s.lpc = .aInit → s.slot = .idle → hostStep s = .next { s with
    jack := some .unknown, ignoreNext := false, snap := none, det := none, cacheOnly := false
    mode := .active, slot := .pending s.cfg.tInitMs
    trace := s.trace ++ [.sched s.cfg.tInitMs true], lpc := .lIdle })

/-- The suspend sequence (44_lifecycle.md R224). Outside cache-only mode, where ControlInvariantKept puts these
steps, each quiescent write goes over the bus, and one that succeeds has reached the codec. -/
def Obligations.SuspendSteps : Prop :=
  (∀ s : State, s.mode = .active → s.lpc = .lIdle → exec .evSuspend s = .next { s with lpc := .sCancel }) ∧
  (∀ s : State, s.lpc = .sCancel → hostStep s = .next { cancel s with lpc := .sHiz }) ∧
  (∀ s : State, s.lpc = .sHiz →
    hostStep s = .next { portWrite s.cfg.regForce s.cfg.forceHiz s with lpc := .sDisable }) ∧
  (∀ s : State, s.lpc = .sDisable →
    hostStep s = .next { portUpdate s.cfg.regEnable s.cfg.enMask 0x00 s with lpc := .sCache }) ∧
  (∀ s : State, s.lpc = .sCache → hostStep s = .next { s with
    cacheOnly := true, trace := s.trace ++ [.port (.cacheOnly true) true none]
    mode := .suspended, lpc := .lIdle }) ∧
  (∀ s : State, s.lpc = .sHiz → s.cacheOnly = false → RegFile.wf s.hw = true →
    ∃ t ok, hostStep s = .next t ∧ (s.cfg.ioFail = false → ok = true) ∧
      t.trace[s.trace.length]? = some (.port (.write s.cfg.regForce s.cfg.forceHiz) ok (some .bus)) ∧
      (ok = true → RegFile.byte t.hw s.cfg.regForce = some s.cfg.forceHiz)) ∧
  (∀ s : State, s.lpc = .sDisable → s.cacheOnly = false → RegFile.wf s.hw = true →
    ∃ t ok, hostStep s = .next t ∧ (s.cfg.ioFail = false → ok = true) ∧
      t.trace[s.trace.length]? = some (.port (.update s.cfg.regEnable s.cfg.enMask 0x00) ok (some .bus)) ∧
      (ok = true → ∀ i : Fin 8, s.cfg.enMask.getLsbD i = true →
        RegFile.bit t.hw s.cfg.regEnable i = some false))

/-- The resume sequence (44_lifecycle.md R225). -/
def Obligations.ResumeSteps : Prop :=
  (∀ s : State, s.mode = .suspended → s.lpc = .lIdle → exec .evResume s = .next { s with lpc := .uCache }) ∧
  (∀ s : State, s.lpc = .uCache → hostStep s = .next { s with
    cacheOnly := false, trace := s.trace ++ [.port (.cacheOnly false) true none], lpc := .uResync }) ∧
  (∀ s : State, s.lpc = .uResync → hostStep s = .next { portResync s with
    lpc := if s.cfg.clockDivWrites.length = 0 then .uState else .uClk 1 }) ∧
  (∀ (s : State) (q : Nat) (a v : Byte), s.lpc = .uClk q →
    s.cfg.clockDivWrites[q - 1]? = some (.write a v) → hostStep s = .next { portWrite a v s with
      lpc := if q < s.cfg.clockDivWrites.length then .uClk (q + 1) else .uState }) ∧
  (∀ (s : State) (q : Nat) (a m v : Byte), s.lpc = .uClk q →
    s.cfg.clockDivWrites[q - 1]? = some (.update a m v) → hostStep s = .next { portUpdate a m v s with
      lpc := if q < s.cfg.clockDivWrites.length then .uClk (q + 1) else .uState }) ∧
  (∀ s : State, s.lpc = .uState → hostStep s =
    .next { schedule s.cfg.tResumeMs s with
      jack := some .unknown, ignoreNext := false, mode := .active, lpc := .lIdle })

/-- The remove sequence and its hold (44_lifecycle.md R226; 40_dispatcher.md R108). -/
def Obligations.RemoveSteps : Prop :=
  (∀ s : State, s.mode = .active ∨ s.mode = .suspended → s.lpc = .lIdle →
    exec .evRemove s = .next { s with lpc := .xCancel }) ∧
  (∀ s : State, s.lpc = .xCancel → hostStep s = .next { cancel s with lpc := .xJoin }) ∧
  (∀ s : State, s.lpc = .xJoin → ¬(s.wpc = .wIdle ∧ s.isr = .off) →
    hostEnabled s = false ∧ hostStep s = .next s) ∧
  (∀ s : State, s.lpc = .xJoin → s.wpc = .wIdle ∧ s.isr = .off → hostEnabled s = true ∧
    hostStep s = .next { s with
      slot := match s.slot with | .pending _ => .idle | x => x
      mode := .removed, lpc := .lIdle })

/-! ## Reset -/

/-- The reset state of a block with any configuration (70_reset_and_hazards.md R270, R272; 10_state.md R29).
The fields R270 does not name are the model's own (log 2 to log 5). -/
def Obligations.ResetState : Prop :=
  ∀ c : Cfg, c.regIrqMask1 ≠ c.regIrqMask2 →
    let s := State.resetWith c
    s.mode = .detached ∧ s.lpc = .lIdle ∧ s.isr = .off ∧ s.wpc = .wIdle ∧ s.slot = .idle ∧
    s.cacheOnly = false ∧ s.ignoreNext = false ∧ s.snap = none ∧ s.det = none ∧ s.jack = none ∧
    s.retry = none ∧ s.loc = Locals.unwritten ∧ s.faults = [] ∧ s.trace = [] ∧
    RegFile.byte s.hw c.regIrqMask1 = some c.resetMasks.m1 ∧
    RegFile.byte s.hw c.regIrqMask2 = some c.resetMasks.m2 ∧
    (∀ a i, a ≠ c.regIrqMask1 → a ≠ c.regIrqMask2 → RegFile.bit s.hw a i = none) ∧
    (∀ a i, RegFile.bit s.shadow a i = none)

/-- The invariants hold at reset, whatever the configuration. -/
def Obligations.ResetMeetsInvariants : Prop :=
  ∀ c : Cfg, RunInv (State.resetWith c) ∧ regFilesWf (State.resetWith c) = true ∧
    NoVolatileShadow (State.resetWith c) ∧ cacheModeOk (State.resetWith c) = true

/-! ## Rules of the whole machine -/

/-- No step writes the configuration, takes back a trace entry, or clears a fault (20_memory.md R68;
10_state.md R34, R36; 60_exceptions.md R259), nor moves the instance to another environment, so that in a system
of several (R256) instances with environments of their own keep them (`source` is the model's, log 20). A turn
of the system steps one instance or, where that one has stopped, none, and leaves every other as it was. -/
def Obligations.ConfigTraceFaultsKept : Prop :=
  (∀ s t : State, step s = .next t →
    t.cfg = s.cfg ∧ s.trace <+: t.trace ∧ s.faults <+: t.faults ∧ t.source = s.source) ∧
  (∀ (n : Nat) (y : System), ownEnvironments y.instances = true →
    ownEnvironments (System.turn n y).instances = true) ∧
  (∀ (n : Nat) (y : System) (s : State), y.instances[n]? = some s →
    (System.turn n y).instances[n]? = some (match step s with | .next t => t | _ => s)) ∧
  (∀ (n k : Nat) (y : System), k ≠ n → (System.turn n y).instances[k]? = y.instances[k]?)

/-- Both copies of the codec's registers stay in canonical form, and the cache never holds a bit of a
volatile register: one of the seven that R51 names or of `VOLATILE_EXTRA`, whichever address that lists (log
26, DEDUCED) (20_memory.md R51, R52, R53, R54). The canonical form is the model's layout (log 6). -/
def Obligations.RegisterCopiesInvariantKept : Prop :=
  (∀ (c : Cfg) (a : Byte), isVolatile c a = true ↔
    a ∈ [c.regStatus0, c.regStatus1, c.regStatus2, c.regKeyscan, c.regDetectDone, c.regDetectResult, c.regId] ∨
    a ∈ c.volatileExtra) ∧
  ∀ s t : State, regFilesWf s = true → step s = .next t →
    regFilesWf t = true ∧ (NoVolatileShadow s → NoVolatileShadow t)

/-- Single flight and modes: the control points, the slot and the mode keep hanging together (40_dispatcher.md
R109; 44_lifecycle.md R227), and as long as no item is offered from outside (log 5) cache-only mode follows
the lifecycle mode (R224, R225). -/
def Obligations.ControlInvariantKept : Prop :=
  ∀ s t : State, ControlInv s → step s = .next t →
    ControlInv t ∧ (s.latch = none → cacheModeOk s = true → cacheModeOk t = true)

/-- The invariant of the machine's runs is kept by every step of every agent: indices stay in range, at most
`RETRY_BUDGET` attempts are made, every local is written before it is read (10_state.md R31;
42_detection_sequencer.md R164, R180, R181), and from `E_TEST` to the report of a removal the stored state is
not None (41_jack_state_machine.md R137). -/
def Obligations.RunInvariantKept : Prop :=
  ∀ s t : State, RunInv s → step s = .next t → RunInv t

/-- The only unwritten state a step reads is the snapshot, at `E_TEST` (10_state.md R36, R273; how the model
goes on from such a read is log 13, DEDUCED). -/
def Obligations.OnlyTheSnapshotFaults : Prop :=
  ∀ s t : State, RunInv s → step s = .next t → t.faults ≠ s.faults →
    s.wpc = .eTest ∧ s.snap = none ∧ t.faults = s.faults ++ [.unwrittenState .snap]

/-- A worker run ends in a bounded number of its own steps: each step of the worker that goes on leaves
fewer steps, from at most `N + B * (max 1 L + P + 2) + 14` (60_exceptions.md R260; 42_detection_sequencer.md
R164, R181). Only at `E_TEST` is the snapshot assumed written: reading it unwritten holds the run there in the
model (10_state.md R36; log 13, DEDUCED). -/
def Obligations.WorkerRunIsBounded : Prop :=
  ∀ s : State, RunInv s → cfgOk s.cfg = true → s.wpc ≠ .wIdle → (s.wpc = .eTest → s.snap ≠ none) →
    stepsLeft s ≤ s.cfg.debounceSamples +
      s.cfg.retryBudget * (max 1 (testStart s.cfg).length + s.cfg.pollCap + 2) + 14 ∧
    (∀ t, workerStep s = .next t → stepsLeft t < stepsLeft s)

/-- No rule moves `st.jack` from one present state directly to another (41_jack_state_machine.md R130). -/
def Obligations.PresentOnlyThroughAbsent : Prop :=
  ∀ (s t : State) (j k : JackState), RunInv s → step s = .next t → s.jack = some j → t.jack = some k →
    isPresent j = true → isPresent k = true → k = j

/-- Only the steps that R20 names write `st.jack`: the report step, the removal, attach and resume
(10_state.md R20). -/
def Obligations.JackWriters : Prop :=
  ∀ s t : State, step s = .next t → t.jack ≠ s.jack →
    s.wpc = .dReport ∨ s.wpc = .dReReport ∨ s.wpc = .eReportNone ∨ s.lpc = .aInit ∨ s.lpc = .uState

/-- A step of an agent appends a jack report only when the classification changes, and then the stored state
is the one reported (41_jack_state_machine.md R134, R151). -/
def Obligations.ReportOnlyOnChange : Prop :=
  ∀ (s t : State) (j : JackState), s.latch = none → step s = .next t →
    .rep (.jack j) ∈ t.trace.drop s.trace.length → s.jack ≠ some j ∧ t.jack = some j

/-- Only `D_SUPP` arms the suppression flag, and only for Headset (10_state.md R22; 42_detection_sequencer.md
R176). -/
def Obligations.SuppressionArmedOnlyForHeadset : Prop :=
  ∀ s t : State, step s = .next t → s.ignoreNext = false → t.ignoreNext = true →
    s.wpc = .dSupp ∧ s.loc.newState = some .headset

/-- "After a remove, no port operation, report or schedule is ever appended" (44_lifecycle.md R228), as long
as no item is offered from outside (log 5): the trace and the mode stay. -/
def Obligations.RemovedIsSilent : Prop :=
  ∀ s t : State, ControlInv s → s.mode = .removed → s.latch = none → step s = .next t →
    t.trace = s.trace ∧ t.mode = .removed

/-- In a final state no agent but the environment, and the host's offers, has an enabled step
(60_exceptions.md R261). -/
def Obligations.FinalStateIsQuiet : Prop :=
  ∀ s : State, isFinal s = true → s.latch = none →
    hostEnabled s = false ∧ isrEnabled s = false ∧ workerEnabled s = false ∧
    eventEnabled s .fire = false ∧
    (s.order ≠ .free → s.script = [] → step s = .next s)

/-- The frame of the instructions that do not access the port's registers: every byte of both register
copies, the configuration, the budget, `st.jack`, the snapshot, the flag, the mode, the faults and the
model's own holders stay as they were. `st.cacheOnly`, the control points, the slot, `st.det`, each local and
the trace change only under the rows named. That the rows of a decode table write `st.det` and locals at all
is the model's reading (log 15), and the working values are the model's own (log 8). -/
def Obligations.FrameOfOtherInstructions : Prop :=
  ∀ (i : Instr) (s t : State),
    (∀ a, i ≠ .read a) → (∀ a v, i ≠ .write a v) → (∀ a m v, i ≠ .update a m v) → i ≠ .resync →
    exec i s = .next t →
    (∀ a, RegFile.mask t.hw a = RegFile.mask s.hw a ∧ RegFile.bits t.hw a = RegFile.bits s.hw a) ∧
    (∀ a, RegFile.mask t.shadow a = RegFile.mask s.shadow a ∧
      RegFile.bits t.shadow a = RegFile.bits s.shadow a) ∧
    t.cfg = s.cfg ∧ t.retry = s.retry ∧ t.jack = s.jack ∧ t.snap = s.snap ∧ t.ignoreNext = s.ignoreNext ∧
    t.mode = s.mode ∧ t.faults = s.faults ∧ t.env = s.env ∧ t.draws = s.draws ∧ t.script = s.script ∧
    t.latch = s.latch ∧ t.order = s.order ∧ t.source = s.source ∧
    ((∀ b, i ≠ .cacheOnly b) → t.cacheOnly = s.cacheOnly) ∧
    (i ≠ .evFire → t.slot = s.slot ∧ t.wpc = s.wpc) ∧
    (i ≠ .evIrq → t.isr = s.isr) ∧
    (i ∉ [.evProbe, .evSuspend, .evResume, .evRemove] → t.lpc = s.lpc) ∧
    ((encode i).fmt ≠ .result → t.det = s.det ∧ t.loc.res = s.loc.res) ∧
    ((encode i).fmt ≠ .classify → t.loc.trip = s.loc.trip ∧ t.loc.newState = s.loc.newState) ∧
    ((encode i).fmt ≠ .keyscan → t.loc.ks = s.loc.ks) ∧
    ((encode i).fmt ≠ .keyscan → (encode i).fmt ≠ .button → t.loc.mapped = s.loc.mapped) ∧
    ((encode i).fmt ≠ .button → t.loc.button = s.loc.button) ∧
    t.loc.aborted = s.loc.aborted ∧ t.loc.timedOut = s.loc.timedOut ∧ t.loc.s0 = s.loc.s0 ∧
    t.loc.s1 = s.loc.s1 ∧ t.loc.nextState = s.loc.nextState ∧
    ((encode i).fmt ≠ .report → (∀ b, i ≠ .cacheOnly b) → (∀ s0 s1 ks, i ≠ .btnNone s0 s1 ks) →
      t.trace = s.trace)
end

