-- ==== Sys2Proof/Laws/Memory.lean ====
section
/-! SUPPORT. Laws of Memory and RegFile: read after write, canonical form, bits. -/

namespace Sys2Proof.Machine

theorem Memory.read_cons (a : Nat) (v : Byte) (m : Memory) (b : Nat)
    (h : a = b → v = Memory.unlisted → Memory.read m b = Memory.unlisted) :
    Memory.read (Memory.cons a v m) b = if a = b then v else Memory.read m b := by
  unfold Memory.cons
  by_cases hv : v = Memory.unlisted
  · rw [if_pos hv]
    split
    · rename_i hab
      rw [h hab hv, hv]
    · rfl
  · rw [if_neg hv]
    rfl

/-- Below a canonical memory's first address everything reads as unlisted. -/
theorem Memory.read_below {lo : Nat} {m : Memory} (h : Memory.wfFrom lo m = true) {a : Nat} (ha : a < lo) :
    Memory.read m a = Memory.unlisted := by
  induction m generalizing lo with
  | nil => rfl
  | cons c m ih =>
    obtain ⟨k, b⟩ := c
    simp only [Memory.wfFrom, Bool.and_eq_true, decide_eq_true_eq] at h
    have hk : ¬ k = a := by omega
    simp only [Memory.read, if_neg hk]
    exact ih h.2 (by omega)

/-- A read after a write gives the value at its own address and the old byte elsewhere. -/
theorem Memory.read_write {lo : Nat} {m : Memory} (h : Memory.wfFrom lo m = true) (a : Nat) (v : Byte) (b : Nat) :
    Memory.read (Memory.write m a v) b = if a = b then v else Memory.read m b := by
  induction m generalizing lo with
  | nil => exact Memory.read_cons a v [] b (fun _ _ => rfl)
  | cons c m ih =>
    obtain ⟨k, w⟩ := c
    have hc := h
    simp only [Memory.wfFrom, Bool.and_eq_true, decide_eq_true_eq] at h
    simp only [Memory.write]
    split
    · rename_i hak
      apply Memory.read_cons
      intro hab _
      have hk : ¬ k = b := by omega
      simp only [Memory.read, if_neg hk]
      exact Memory.read_below h.2 (by omega)
    · split
      · rename_i hak
        subst hak
        rw [Memory.read_cons a v m b (fun hab _ => Memory.read_below h.2 (by omega))]
        simp only [Memory.read]
        split <;> rfl
      · rename_i hne
        simp only [Memory.read]
        rw [ih h.2]
        split
        · rename_i hkb
          have : ¬ a = b := by omega
          rw [if_neg this]
        · rfl

theorem Memory.wfFrom_le {lo lo' : Nat} {m : Memory} (h : Memory.wfFrom lo m = true) (hl : lo' ≤ lo) :
    Memory.wfFrom lo' m = true := by
  cases m with
  | nil => rfl
  | cons c m =>
    obtain ⟨k, b⟩ := c
    simp only [Memory.wfFrom, Bool.and_eq_true, decide_eq_true_eq] at h ⊢
    exact ⟨⟨by omega, h.1.2⟩, h.2⟩

theorem Memory.wfFrom_cons {lo a : Nat} {v : Byte} {m : Memory} (ha : lo ≤ a)
    (h : Memory.wfFrom (a + 1) m = true) : Memory.wfFrom lo (Memory.cons a v m) = true := by
  unfold Memory.cons
  split
  · exact Memory.wfFrom_le h (by omega)
  · rename_i hv
    simp only [Memory.wfFrom, Bool.and_eq_true, decide_eq_true_eq]
    exact ⟨⟨ha, hv⟩, h⟩

/-- A write keeps the canonical form. -/
theorem Memory.wfFrom_write {lo : Nat} {m : Memory} (h : Memory.wfFrom lo m = true) {a : Nat} (ha : lo ≤ a)
    (v : Byte) : Memory.wfFrom lo (Memory.write m a v) = true := by
  induction m generalizing lo with
  | nil => exact Memory.wfFrom_cons ha rfl
  | cons c m ih =>
    obtain ⟨k, w⟩ := c
    have hc := h
    simp only [Memory.wfFrom, Bool.and_eq_true, decide_eq_true_eq] at h
    simp only [Memory.write]
    split
    · apply Memory.wfFrom_cons ha
      simp only [Memory.wfFrom, Bool.and_eq_true, decide_eq_true_eq]
      exact ⟨⟨by omega, h.1.2⟩, h.2⟩
    · split
      · rename_i hak
        subst hak
        exact Memory.wfFrom_cons ha h.2
      · simp only [Memory.wfFrom, Bool.and_eq_true, decide_eq_true_eq]
        exact ⟨⟨h.1.1, h.1.2⟩, ih h.2 (by omega)⟩

theorem Memory.wf_write {m : Memory} (h : Memory.wf m = true) (a : Nat) (v : Byte) :
    Memory.wf (Memory.write m a v) = true :=
  Memory.wfFrom_write h (Nat.zero_le a) v

/-- The cells of a memory after a write are cells of it before, or the one written. -/
theorem Memory.mem_write {m : Memory} {a : Nat} {v : Byte} {c : Host.Cell}
    (h : c ∈ Memory.write m a v) : c ∈ m ∨ c = (a, v) := by
  have hcons : ∀ {l : Memory}, c ∈ Memory.cons a v l → c ∈ l ∨ c = (a, v) := by
    intro l hl
    unfold Memory.cons at hl
    split at hl
    · exact .inl hl
    · rcases List.mem_cons.mp hl with h1 | h1
      · exact .inr h1
      · exact .inl h1
  induction m with
  | nil => exact hcons h
  | cons d m ih =>
    obtain ⟨k, w⟩ := d
    simp only [Memory.write] at h
    split at h
    · exact hcons h
    · split at h
      · rcases hcons h with h1 | h1
        · exact .inl (List.mem_cons_of_mem _ h1)
        · exact .inr h1
      · rcases List.mem_cons.mp h with h1 | h1
        · exact .inl (h1 ▸ List.mem_cons_self)
        · rcases ih h1 with h2 | h2
          · exact .inl (List.mem_cons_of_mem _ h2)
          · exact .inr h2

/-- A listed cell of a canonical memory is what its address reads as. -/
theorem Memory.read_of_mem {lo : Nat} {m : Memory} (h : Memory.wfFrom lo m = true) {c : Host.Cell} (hc : c ∈ m) :
    Memory.read m c.1 = c.2 := by
  induction m generalizing lo with
  | nil => cases hc
  | cons d m ih =>
    obtain ⟨k, w⟩ := d
    simp only [Memory.wfFrom, Bool.and_eq_true, decide_eq_true_eq] at h
    rcases List.mem_cons.mp hc with h1 | h1
    · subst h1
      simp [Memory.read]
    · have hr := ih h.2 h1
      by_cases hk : k = c.1
      · exfalso
        have hlow : Memory.read m c.1 = Memory.unlisted := Memory.read_below h.2 (by omega)
        have hne : ∀ {lo' : Nat} {l : Memory}, Memory.wfFrom lo' l = true → c ∈ l → c.2 ≠ Memory.unlisted := by
          intro lo' l hl hcl
          induction l generalizing lo' with
          | nil => cases hcl
          | cons e l ihl =>
            obtain ⟨k', w'⟩ := e
            simp only [Memory.wfFrom, Bool.and_eq_true, decide_eq_true_eq] at hl
            rcases List.mem_cons.mp hcl with h2 | h2
            · subst h2
              exact hl.1.2
            · exact ihl hl.2 h2
        exact hne h.2 h1 (hr.symm.trans hlow)
      · simp only [Memory.read, if_neg hk]
        exact hr

/-- An address a memory reads at other than unlisted is listed. -/
theorem Memory.mem_of_read {m : Memory} {a : Nat} (h : Memory.read m a ≠ Memory.unlisted) :
    (a, Memory.read m a) ∈ m := by
  induction m with
  | nil => exact absurd rfl h
  | cons c m ih =>
    obtain ⟨k, b⟩ := c
    simp only [Memory.read] at h ⊢
    split
    · rename_i hk
      subst hk
      exact List.mem_cons_self
    · rename_i hk
      rw [if_neg hk] at h
      exact List.mem_cons_of_mem _ (ih h)

/-! ## RegFile -/

/-- The parts of a register file's canonical form. -/
structure RegFile.Wf (r : RegFile) : Prop where
  known   : Memory.wf r.known = true
  value   : Memory.wf r.value = true
  knownLt : ∀ c ∈ r.known, c.1 < 256
  valueLt : ∀ c ∈ r.value, c.1 < 256
  within  : ∀ c ∈ r.value, c.2 &&& ~~~(Memory.read r.known c.1) = 0#8

theorem RegFile.wf_iff (r : RegFile) : RegFile.wf r = true ↔ RegFile.Wf r := by
  simp only [RegFile.wf, Bool.and_eq_true, List.all_eq_true, decide_eq_true_eq, beq_iff_eq]
  constructor
  · rintro ⟨⟨⟨⟨h1, h2⟩, h3⟩, h4⟩, h5⟩
    exact ⟨h1, h2, h3, h4, h5⟩
  · rintro ⟨h1, h2, h3, h4, h5⟩
    exact ⟨⟨⟨⟨h1, h2⟩, h3⟩, h4⟩, h5⟩

theorem RegFile.wf_unknown : RegFile.wf RegFile.unknown = true := rfl

theorem byte_toNat_inj {a b : Byte} : a.toNat = b.toNat ↔ a = b :=
  ⟨BitVec.eq_of_toNat_eq, fun h => h ▸ rfl⟩

/-- The known mask after setting bits. -/
theorem RegFile.mask_setBits {r : RegFile} (h : RegFile.Wf r) (a m v b : Byte) :
    RegFile.mask (RegFile.setBits r a m v) b = if a = b then RegFile.mask r a ||| m else RegFile.mask r b := by
  simp only [RegFile.mask, RegFile.setBits]
  rw [Memory.read_write h.known]
  simp only [byte_toNat_inj]

/-- The values after setting bits. -/
theorem RegFile.bits_setBits {r : RegFile} (h : RegFile.Wf r) (a m v b : Byte) :
    RegFile.bits (RegFile.setBits r a m v) b =
      if a = b then (RegFile.bits r a &&& ~~~m) ||| (v &&& m) else RegFile.bits r b := by
  simp only [RegFile.bits, RegFile.setBits]
  rw [Memory.read_write h.value]
  simp only [byte_toNat_inj]

/-- Unknown bits are 0. -/
theorem RegFile.bits_within {r : RegFile} (h : RegFile.Wf r) (a : Byte) :
    RegFile.bits r a &&& ~~~(RegFile.mask r a) = 0#8 := by
  unfold RegFile.bits RegFile.mask
  by_cases hz : Memory.read r.value a.toNat = Memory.unlisted
  · rw [hz]
    simp [Memory.unlisted]
  · exact h.within _ (Memory.mem_of_read hz)

/-- Setting bits keeps the canonical form. -/
theorem RegFile.wf_setBits {r : RegFile} (hr : RegFile.wf r = true) (a m v : Byte) :
    RegFile.wf (RegFile.setBits r a m v) = true := by
  have h := (RegFile.wf_iff r).mp hr
  have hmask := RegFile.mask_setBits h a m v
  refine (RegFile.wf_iff _).mpr ⟨Memory.wf_write h.known _ _, Memory.wf_write h.value _ _, ?_, ?_, ?_⟩
  · intro c hc
    rcases Memory.mem_write hc with h1 | h1
    · exact h.knownLt c h1
    · subst h1
      exact a.isLt
  · intro c hc
    rcases Memory.mem_write hc with h1 | h1
    · exact h.valueLt c h1
    · subst h1
      exact a.isLt
  · intro c hc
    have hlt : c.1 < 256 := by
      rcases Memory.mem_write hc with h1 | h1
      · exact h.valueLt c h1
      · subst h1
        exact a.isLt
    have hb : (BitVec.ofNat 8 c.1).toNat = c.1 := by
      simp only [BitVec.toNat_ofNat]
      omega
    have hval : c.2 = RegFile.bits (RegFile.setBits r a m v) (BitVec.ofNat 8 c.1) := by
      unfold RegFile.bits
      rw [hb]
      exact (Memory.read_of_mem (Memory.wf_write h.value _ _) hc).symm
    have hkn : Memory.read (RegFile.setBits r a m v).known c.1
        = RegFile.mask (RegFile.setBits r a m v) (BitVec.ofNat 8 c.1) := by
      unfold RegFile.mask
      rw [hb]
    rw [hval, hkn, hmask, RegFile.bits_setBits h]
    have hw := RegFile.bits_within h (BitVec.ofNat 8 c.1)
    split
    · rename_i hab
      rw [hab]
      generalize RegFile.bits r (BitVec.ofNat 8 c.1) = x at hw ⊢
      generalize RegFile.mask r (BitVec.ofNat 8 c.1) = y at hw ⊢
      ext i hi
      have := congrArg (fun z : BitVec 8 => z.getLsbD i) hw
      simp [hi] at this ⊢
      cases hx : x[i] <;> cases hy : y[i] <;> cases hm : m[i] <;> cases hv : v[i] <;> simp_all
    · exact hw

/-- One bit after setting bits: under the mask the new value, known; elsewhere the old bit. -/
theorem RegFile.bit_setBits {r : RegFile} (hr : RegFile.wf r = true) (a m v b : Byte) (i : Fin 8) :
    RegFile.bit (RegFile.setBits r a m v) b i =
      if a = b ∧ m.getLsbD i = true then some (v.getLsbD i) else RegFile.bit r b i := by
  have h := (RegFile.wf_iff r).mp hr
  unfold RegFile.bit
  rw [RegFile.mask_setBits h, RegFile.bits_setBits h]
  by_cases hab : a = b
  · subst hab
    have hi := i.isLt
    simp only [BitVec.getLsbD_eq_getElem hi]
    cases hm : m[i.val]'(hi) <;> simp [hm]
  · simp [hab]

/-- A whole byte after setting bits elsewhere. -/
theorem RegFile.byte_setBits_ne {r : RegFile} (hr : RegFile.wf r = true) {a b : Byte} (m v : Byte) (hab : a ≠ b) :
    RegFile.byte (RegFile.setBits r a m v) b = RegFile.byte r b := by
  have h := (RegFile.wf_iff r).mp hr
  unfold RegFile.byte
  rw [RegFile.mask_setBits h, RegFile.bits_setBits h, if_neg hab, if_neg hab]

/-- A whole-byte write is read back as a known byte (20_memory.md R53, R29). -/
theorem RegFile.byte_setBits_all {r : RegFile} (hr : RegFile.wf r = true) (a v : Byte) :
    RegFile.byte (RegFile.setBits r a 0xFF v) a = some v := by
  have h := (RegFile.wf_iff r).mp hr
  unfold RegFile.byte
  rw [RegFile.mask_setBits h, RegFile.bits_setBits h, if_pos rfl, if_pos rfl]
  have hall : (0xFF : Byte) = BitVec.allOnes 8 := by decide
  have h1 : RegFile.mask r a ||| (0xFF : Byte) = (0xFF : Byte) := by
    rw [hall, BitVec.or_allOnes]
  have h2 : (RegFile.bits r a &&& ~~~(0xFF : Byte)) ||| (v &&& (0xFF : Byte)) = v := by
    rw [hall, BitVec.not_allOnes, BitVec.and_zero, BitVec.zero_or, BitVec.and_allOnes]
  rw [h1, h2, if_pos rfl]

end Sys2Proof.Machine
end

