-- ==== Sys2Proof/Laws/State.lean ====
section
/-! SUPPORT. One lemma per field per named update of the state, so that no proof unfolds a record update. -/

namespace Sys2Proof.Machine

/-! ## emit -/

@[simp] theorem emit_cfg (e : TraceEvent) (s : State) :
    (emit e s).cfg = s.cfg := rfl
@[simp] theorem emit_jack (e : TraceEvent) (s : State) :
    (emit e s).jack = s.jack := rfl
@[simp] theorem emit_retry (e : TraceEvent) (s : State) :
    (emit e s).retry = s.retry := rfl
@[simp] theorem emit_ignoreNext (e : TraceEvent) (s : State) :
    (emit e s).ignoreNext = s.ignoreNext := rfl
@[simp] theorem emit_snap (e : TraceEvent) (s : State) :
    (emit e s).snap = s.snap := rfl
@[simp] theorem emit_det (e : TraceEvent) (s : State) :
    (emit e s).det = s.det := rfl
@[simp] theorem emit_slot (e : TraceEvent) (s : State) :
    (emit e s).slot = s.slot := rfl
@[simp] theorem emit_mode (e : TraceEvent) (s : State) :
    (emit e s).mode = s.mode := rfl
@[simp] theorem emit_cacheOnly (e : TraceEvent) (s : State) :
    (emit e s).cacheOnly = s.cacheOnly := rfl
@[simp] theorem emit_isr (e : TraceEvent) (s : State) :
    (emit e s).isr = s.isr := rfl
@[simp] theorem emit_wpc (e : TraceEvent) (s : State) :
    (emit e s).wpc = s.wpc := rfl
@[simp] theorem emit_lpc (e : TraceEvent) (s : State) :
    (emit e s).lpc = s.lpc := rfl
@[simp] theorem emit_loc (e : TraceEvent) (s : State) :
    (emit e s).loc = s.loc := rfl
@[simp] theorem emit_hw (e : TraceEvent) (s : State) :
    (emit e s).hw = s.hw := rfl
@[simp] theorem emit_shadow (e : TraceEvent) (s : State) :
    (emit e s).shadow = s.shadow := rfl
@[simp] theorem emit_faults (e : TraceEvent) (s : State) :
    (emit e s).faults = s.faults := rfl
@[simp] theorem emit_trace (e : TraceEvent) (s : State) :
    (emit e s).trace = s.trace ++ [e] := rfl
@[simp] theorem emit_env (e : TraceEvent) (s : State) :
    (emit e s).env = s.env := rfl
@[simp] theorem emit_draws (e : TraceEvent) (s : State) :
    (emit e s).draws = s.draws := rfl
@[simp] theorem emit_order (e : TraceEvent) (s : State) :
    (emit e s).order = s.order := rfl
@[simp] theorem emit_script (e : TraceEvent) (s : State) :
    (emit e s).script = s.script := rfl
@[simp] theorem emit_latch (e : TraceEvent) (s : State) :
    (emit e s).latch = s.latch := rfl
@[simp] theorem emit_source (e : TraceEvent) (s : State) :
    (emit e s).source = s.source := rfl

/-! ## goto -/

@[simp] theorem goto_cfg (l : Label) (s : State) :
    (goto l s).cfg = s.cfg := rfl
@[simp] theorem goto_jack (l : Label) (s : State) :
    (goto l s).jack = s.jack := rfl
@[simp] theorem goto_retry (l : Label) (s : State) :
    (goto l s).retry = s.retry := rfl
@[simp] theorem goto_ignoreNext (l : Label) (s : State) :
    (goto l s).ignoreNext = s.ignoreNext := rfl
@[simp] theorem goto_snap (l : Label) (s : State) :
    (goto l s).snap = s.snap := rfl
@[simp] theorem goto_det (l : Label) (s : State) :
    (goto l s).det = s.det := rfl
@[simp] theorem goto_slot (l : Label) (s : State) :
    (goto l s).slot = s.slot := rfl
@[simp] theorem goto_mode (l : Label) (s : State) :
    (goto l s).mode = s.mode := rfl
@[simp] theorem goto_cacheOnly (l : Label) (s : State) :
    (goto l s).cacheOnly = s.cacheOnly := rfl
@[simp] theorem goto_isr (l : Label) (s : State) :
    (goto l s).isr = s.isr := rfl
@[simp] theorem goto_wpc (l : Label) (s : State) :
    (goto l s).wpc = l := rfl
@[simp] theorem goto_lpc (l : Label) (s : State) :
    (goto l s).lpc = s.lpc := rfl
@[simp] theorem goto_loc (l : Label) (s : State) :
    (goto l s).loc = s.loc := rfl
@[simp] theorem goto_hw (l : Label) (s : State) :
    (goto l s).hw = s.hw := rfl
@[simp] theorem goto_shadow (l : Label) (s : State) :
    (goto l s).shadow = s.shadow := rfl
@[simp] theorem goto_faults (l : Label) (s : State) :
    (goto l s).faults = s.faults := rfl
@[simp] theorem goto_trace (l : Label) (s : State) :
    (goto l s).trace = s.trace := rfl
@[simp] theorem goto_env (l : Label) (s : State) :
    (goto l s).env = s.env := rfl
@[simp] theorem goto_draws (l : Label) (s : State) :
    (goto l s).draws = s.draws := rfl
@[simp] theorem goto_order (l : Label) (s : State) :
    (goto l s).order = s.order := rfl
@[simp] theorem goto_script (l : Label) (s : State) :
    (goto l s).script = s.script := rfl
@[simp] theorem goto_latch (l : Label) (s : State) :
    (goto l s).latch = s.latch := rfl
@[simp] theorem goto_source (l : Label) (s : State) :
    (goto l s).source = s.source := rfl

/-! ## setIsr -/

@[simp] theorem setIsr_cfg (p : IsrPoint) (s : State) :
    (setIsr p s).cfg = s.cfg := rfl
@[simp] theorem setIsr_jack (p : IsrPoint) (s : State) :
    (setIsr p s).jack = s.jack := rfl
@[simp] theorem setIsr_retry (p : IsrPoint) (s : State) :
    (setIsr p s).retry = s.retry := rfl
@[simp] theorem setIsr_ignoreNext (p : IsrPoint) (s : State) :
    (setIsr p s).ignoreNext = s.ignoreNext := rfl
@[simp] theorem setIsr_snap (p : IsrPoint) (s : State) :
    (setIsr p s).snap = s.snap := rfl
@[simp] theorem setIsr_det (p : IsrPoint) (s : State) :
    (setIsr p s).det = s.det := rfl
@[simp] theorem setIsr_slot (p : IsrPoint) (s : State) :
    (setIsr p s).slot = s.slot := rfl
@[simp] theorem setIsr_mode (p : IsrPoint) (s : State) :
    (setIsr p s).mode = s.mode := rfl
@[simp] theorem setIsr_cacheOnly (p : IsrPoint) (s : State) :
    (setIsr p s).cacheOnly = s.cacheOnly := rfl
@[simp] theorem setIsr_isr (p : IsrPoint) (s : State) :
    (setIsr p s).isr = p := rfl
@[simp] theorem setIsr_wpc (p : IsrPoint) (s : State) :
    (setIsr p s).wpc = s.wpc := rfl
@[simp] theorem setIsr_lpc (p : IsrPoint) (s : State) :
    (setIsr p s).lpc = s.lpc := rfl
@[simp] theorem setIsr_loc (p : IsrPoint) (s : State) :
    (setIsr p s).loc = s.loc := rfl
@[simp] theorem setIsr_hw (p : IsrPoint) (s : State) :
    (setIsr p s).hw = s.hw := rfl
@[simp] theorem setIsr_shadow (p : IsrPoint) (s : State) :
    (setIsr p s).shadow = s.shadow := rfl
@[simp] theorem setIsr_faults (p : IsrPoint) (s : State) :
    (setIsr p s).faults = s.faults := rfl
@[simp] theorem setIsr_trace (p : IsrPoint) (s : State) :
    (setIsr p s).trace = s.trace := rfl
@[simp] theorem setIsr_env (p : IsrPoint) (s : State) :
    (setIsr p s).env = s.env := rfl
@[simp] theorem setIsr_draws (p : IsrPoint) (s : State) :
    (setIsr p s).draws = s.draws := rfl
@[simp] theorem setIsr_order (p : IsrPoint) (s : State) :
    (setIsr p s).order = s.order := rfl
@[simp] theorem setIsr_script (p : IsrPoint) (s : State) :
    (setIsr p s).script = s.script := rfl
@[simp] theorem setIsr_latch (p : IsrPoint) (s : State) :
    (setIsr p s).latch = s.latch := rfl
@[simp] theorem setIsr_source (p : IsrPoint) (s : State) :
    (setIsr p s).source = s.source := rfl

/-! ## setLpc -/

@[simp] theorem setLpc_cfg (p : LifePoint) (s : State) :
    (setLpc p s).cfg = s.cfg := rfl
@[simp] theorem setLpc_jack (p : LifePoint) (s : State) :
    (setLpc p s).jack = s.jack := rfl
@[simp] theorem setLpc_retry (p : LifePoint) (s : State) :
    (setLpc p s).retry = s.retry := rfl
@[simp] theorem setLpc_ignoreNext (p : LifePoint) (s : State) :
    (setLpc p s).ignoreNext = s.ignoreNext := rfl
@[simp] theorem setLpc_snap (p : LifePoint) (s : State) :
    (setLpc p s).snap = s.snap := rfl
@[simp] theorem setLpc_det (p : LifePoint) (s : State) :
    (setLpc p s).det = s.det := rfl
@[simp] theorem setLpc_slot (p : LifePoint) (s : State) :
    (setLpc p s).slot = s.slot := rfl
@[simp] theorem setLpc_mode (p : LifePoint) (s : State) :
    (setLpc p s).mode = s.mode := rfl
@[simp] theorem setLpc_cacheOnly (p : LifePoint) (s : State) :
    (setLpc p s).cacheOnly = s.cacheOnly := rfl
@[simp] theorem setLpc_isr (p : LifePoint) (s : State) :
    (setLpc p s).isr = s.isr := rfl
@[simp] theorem setLpc_wpc (p : LifePoint) (s : State) :
    (setLpc p s).wpc = s.wpc := rfl
@[simp] theorem setLpc_lpc (p : LifePoint) (s : State) :
    (setLpc p s).lpc = p := rfl
@[simp] theorem setLpc_loc (p : LifePoint) (s : State) :
    (setLpc p s).loc = s.loc := rfl
@[simp] theorem setLpc_hw (p : LifePoint) (s : State) :
    (setLpc p s).hw = s.hw := rfl
@[simp] theorem setLpc_shadow (p : LifePoint) (s : State) :
    (setLpc p s).shadow = s.shadow := rfl
@[simp] theorem setLpc_faults (p : LifePoint) (s : State) :
    (setLpc p s).faults = s.faults := rfl
@[simp] theorem setLpc_trace (p : LifePoint) (s : State) :
    (setLpc p s).trace = s.trace := rfl
@[simp] theorem setLpc_env (p : LifePoint) (s : State) :
    (setLpc p s).env = s.env := rfl
@[simp] theorem setLpc_draws (p : LifePoint) (s : State) :
    (setLpc p s).draws = s.draws := rfl
@[simp] theorem setLpc_order (p : LifePoint) (s : State) :
    (setLpc p s).order = s.order := rfl
@[simp] theorem setLpc_script (p : LifePoint) (s : State) :
    (setLpc p s).script = s.script := rfl
@[simp] theorem setLpc_latch (p : LifePoint) (s : State) :
    (setLpc p s).latch = s.latch := rfl
@[simp] theorem setLpc_source (p : LifePoint) (s : State) :
    (setLpc p s).source = s.source := rfl

/-! ## advance -/

@[simp] theorem advance_cfg (s : State) :
    (advance s).cfg = s.cfg := rfl
@[simp] theorem advance_jack (s : State) :
    (advance s).jack = s.jack := rfl
@[simp] theorem advance_retry (s : State) :
    (advance s).retry = s.retry := rfl
@[simp] theorem advance_ignoreNext (s : State) :
    (advance s).ignoreNext = s.ignoreNext := rfl
@[simp] theorem advance_snap (s : State) :
    (advance s).snap = s.snap := rfl
@[simp] theorem advance_det (s : State) :
    (advance s).det = s.det := rfl
@[simp] theorem advance_slot (s : State) :
    (advance s).slot = s.slot := rfl
@[simp] theorem advance_mode (s : State) :
    (advance s).mode = s.mode := rfl
@[simp] theorem advance_cacheOnly (s : State) :
    (advance s).cacheOnly = s.cacheOnly := rfl
@[simp] theorem advance_isr (s : State) :
    (advance s).isr = s.isr := rfl
@[simp] theorem advance_wpc (s : State) :
    (advance s).wpc = s.wpc := rfl
@[simp] theorem advance_lpc (s : State) :
    (advance s).lpc = s.lpc := rfl
@[simp] theorem advance_loc (s : State) :
    (advance s).loc = s.loc := rfl
@[simp] theorem advance_hw (s : State) :
    (advance s).hw = s.hw := rfl
@[simp] theorem advance_shadow (s : State) :
    (advance s).shadow = s.shadow := rfl
@[simp] theorem advance_faults (s : State) :
    (advance s).faults = s.faults := rfl
@[simp] theorem advance_trace (s : State) :
    (advance s).trace = s.trace := rfl
@[simp] theorem advance_env (s : State) :
    (advance s).env = s.env := rfl
@[simp] theorem advance_draws (s : State) :
    (advance s).draws = s.draws + 1 := rfl
@[simp] theorem advance_order (s : State) :
    (advance s).order = s.order := rfl
@[simp] theorem advance_script (s : State) :
    (advance s).script = s.script := rfl
@[simp] theorem advance_latch (s : State) :
    (advance s).latch = s.latch := rfl
@[simp] theorem advance_source (s : State) :
    (advance s).source = s.source := rfl

/-! ## codecBits -/

@[simp] theorem codecBits_cfg (a m v : Byte) (s : State) :
    (codecBits a m v s).cfg = s.cfg := rfl
@[simp] theorem codecBits_jack (a m v : Byte) (s : State) :
    (codecBits a m v s).jack = s.jack := rfl
@[simp] theorem codecBits_retry (a m v : Byte) (s : State) :
    (codecBits a m v s).retry = s.retry := rfl
@[simp] theorem codecBits_ignoreNext (a m v : Byte) (s : State) :
    (codecBits a m v s).ignoreNext = s.ignoreNext := rfl
@[simp] theorem codecBits_snap (a m v : Byte) (s : State) :
    (codecBits a m v s).snap = s.snap := rfl
@[simp] theorem codecBits_det (a m v : Byte) (s : State) :
    (codecBits a m v s).det = s.det := rfl
@[simp] theorem codecBits_slot (a m v : Byte) (s : State) :
    (codecBits a m v s).slot = s.slot := rfl
@[simp] theorem codecBits_mode (a m v : Byte) (s : State) :
    (codecBits a m v s).mode = s.mode := rfl
@[simp] theorem codecBits_cacheOnly (a m v : Byte) (s : State) :
    (codecBits a m v s).cacheOnly = s.cacheOnly := rfl
@[simp] theorem codecBits_isr (a m v : Byte) (s : State) :
    (codecBits a m v s).isr = s.isr := rfl
@[simp] theorem codecBits_wpc (a m v : Byte) (s : State) :
    (codecBits a m v s).wpc = s.wpc := rfl
@[simp] theorem codecBits_lpc (a m v : Byte) (s : State) :
    (codecBits a m v s).lpc = s.lpc := rfl
@[simp] theorem codecBits_loc (a m v : Byte) (s : State) :
    (codecBits a m v s).loc = s.loc := rfl
@[simp] theorem codecBits_hw (a m v : Byte) (s : State) :
    (codecBits a m v s).hw = RegFile.setBits s.hw a m v := rfl
@[simp] theorem codecBits_shadow (a m v : Byte) (s : State) :
    (codecBits a m v s).shadow = s.shadow := rfl
@[simp] theorem codecBits_faults (a m v : Byte) (s : State) :
    (codecBits a m v s).faults = s.faults := rfl
@[simp] theorem codecBits_trace (a m v : Byte) (s : State) :
    (codecBits a m v s).trace = s.trace := rfl
@[simp] theorem codecBits_env (a m v : Byte) (s : State) :
    (codecBits a m v s).env = s.env := rfl
@[simp] theorem codecBits_draws (a m v : Byte) (s : State) :
    (codecBits a m v s).draws = s.draws := rfl
@[simp] theorem codecBits_order (a m v : Byte) (s : State) :
    (codecBits a m v s).order = s.order := rfl
@[simp] theorem codecBits_script (a m v : Byte) (s : State) :
    (codecBits a m v s).script = s.script := rfl
@[simp] theorem codecBits_latch (a m v : Byte) (s : State) :
    (codecBits a m v s).latch = s.latch := rfl
@[simp] theorem codecBits_source (a m v : Byte) (s : State) :
    (codecBits a m v s).source = s.source := rfl

/-! ## cancel -/

@[simp] theorem cancel_cfg (s : State) :
    (cancel s).cfg = s.cfg := rfl
@[simp] theorem cancel_jack (s : State) :
    (cancel s).jack = s.jack := rfl
@[simp] theorem cancel_retry (s : State) :
    (cancel s).retry = s.retry := rfl
@[simp] theorem cancel_ignoreNext (s : State) :
    (cancel s).ignoreNext = s.ignoreNext := rfl
@[simp] theorem cancel_snap (s : State) :
    (cancel s).snap = s.snap := rfl
@[simp] theorem cancel_det (s : State) :
    (cancel s).det = s.det := rfl
@[simp] theorem cancel_slot (s : State) :
    (cancel s).slot = slotCancel s.slot := rfl
@[simp] theorem cancel_mode (s : State) :
    (cancel s).mode = s.mode := rfl
@[simp] theorem cancel_cacheOnly (s : State) :
    (cancel s).cacheOnly = s.cacheOnly := rfl
@[simp] theorem cancel_isr (s : State) :
    (cancel s).isr = s.isr := rfl
@[simp] theorem cancel_wpc (s : State) :
    (cancel s).wpc = s.wpc := rfl
@[simp] theorem cancel_lpc (s : State) :
    (cancel s).lpc = s.lpc := rfl
@[simp] theorem cancel_loc (s : State) :
    (cancel s).loc = s.loc := rfl
@[simp] theorem cancel_hw (s : State) :
    (cancel s).hw = s.hw := rfl
@[simp] theorem cancel_shadow (s : State) :
    (cancel s).shadow = s.shadow := rfl
@[simp] theorem cancel_faults (s : State) :
    (cancel s).faults = s.faults := rfl
@[simp] theorem cancel_trace (s : State) :
    (cancel s).trace = s.trace := rfl
@[simp] theorem cancel_env (s : State) :
    (cancel s).env = s.env := rfl
@[simp] theorem cancel_draws (s : State) :
    (cancel s).draws = s.draws := rfl
@[simp] theorem cancel_order (s : State) :
    (cancel s).order = s.order := rfl
@[simp] theorem cancel_script (s : State) :
    (cancel s).script = s.script := rfl
@[simp] theorem cancel_latch (s : State) :
    (cancel s).latch = s.latch := rfl
@[simp] theorem cancel_source (s : State) :
    (cancel s).source = s.source := rfl

/-! ## latchResult -/

@[simp] theorem latchResult_cfg (r : Byte) (e : DetectionResult) (s : State) :
    (latchResult r e s).cfg = s.cfg := rfl
@[simp] theorem latchResult_jack (r : Byte) (e : DetectionResult) (s : State) :
    (latchResult r e s).jack = s.jack := rfl
@[simp] theorem latchResult_retry (r : Byte) (e : DetectionResult) (s : State) :
    (latchResult r e s).retry = s.retry := rfl
@[simp] theorem latchResult_ignoreNext (r : Byte) (e : DetectionResult) (s : State) :
    (latchResult r e s).ignoreNext = s.ignoreNext := rfl
@[simp] theorem latchResult_snap (r : Byte) (e : DetectionResult) (s : State) :
    (latchResult r e s).snap = s.snap := rfl
@[simp] theorem latchResult_det (r : Byte) (e : DetectionResult) (s : State) :
    (latchResult r e s).det = some e := rfl
@[simp] theorem latchResult_slot (r : Byte) (e : DetectionResult) (s : State) :
    (latchResult r e s).slot = s.slot := rfl
@[simp] theorem latchResult_mode (r : Byte) (e : DetectionResult) (s : State) :
    (latchResult r e s).mode = s.mode := rfl
@[simp] theorem latchResult_cacheOnly (r : Byte) (e : DetectionResult) (s : State) :
    (latchResult r e s).cacheOnly = s.cacheOnly := rfl
@[simp] theorem latchResult_isr (r : Byte) (e : DetectionResult) (s : State) :
    (latchResult r e s).isr = s.isr := rfl
@[simp] theorem latchResult_wpc (r : Byte) (e : DetectionResult) (s : State) :
    (latchResult r e s).wpc = s.wpc := rfl
@[simp] theorem latchResult_lpc (r : Byte) (e : DetectionResult) (s : State) :
    (latchResult r e s).lpc = s.lpc := rfl
@[simp] theorem latchResult_loc (r : Byte) (e : DetectionResult) (s : State) :
    (latchResult r e s).loc = { s.loc with res := some r } := rfl
@[simp] theorem latchResult_hw (r : Byte) (e : DetectionResult) (s : State) :
    (latchResult r e s).hw = s.hw := rfl
@[simp] theorem latchResult_shadow (r : Byte) (e : DetectionResult) (s : State) :
    (latchResult r e s).shadow = s.shadow := rfl
@[simp] theorem latchResult_faults (r : Byte) (e : DetectionResult) (s : State) :
    (latchResult r e s).faults = s.faults := rfl
@[simp] theorem latchResult_trace (r : Byte) (e : DetectionResult) (s : State) :
    (latchResult r e s).trace = s.trace := rfl
@[simp] theorem latchResult_env (r : Byte) (e : DetectionResult) (s : State) :
    (latchResult r e s).env = s.env := rfl
@[simp] theorem latchResult_draws (r : Byte) (e : DetectionResult) (s : State) :
    (latchResult r e s).draws = s.draws := rfl
@[simp] theorem latchResult_order (r : Byte) (e : DetectionResult) (s : State) :
    (latchResult r e s).order = s.order := rfl
@[simp] theorem latchResult_script (r : Byte) (e : DetectionResult) (s : State) :
    (latchResult r e s).script = s.script := rfl
@[simp] theorem latchResult_latch (r : Byte) (e : DetectionResult) (s : State) :
    (latchResult r e s).latch = s.latch := rfl
@[simp] theorem latchResult_source (r : Byte) (e : DetectionResult) (s : State) :
    (latchResult r e s).source = s.source := rfl

/-! ## latchClass -/

@[simp] theorem latchClass_cfg (t : Triplet) (j : JackState) (s : State) :
    (latchClass t j s).cfg = s.cfg := rfl
@[simp] theorem latchClass_jack (t : Triplet) (j : JackState) (s : State) :
    (latchClass t j s).jack = s.jack := rfl
@[simp] theorem latchClass_retry (t : Triplet) (j : JackState) (s : State) :
    (latchClass t j s).retry = s.retry := rfl
@[simp] theorem latchClass_ignoreNext (t : Triplet) (j : JackState) (s : State) :
    (latchClass t j s).ignoreNext = s.ignoreNext := rfl
@[simp] theorem latchClass_snap (t : Triplet) (j : JackState) (s : State) :
    (latchClass t j s).snap = s.snap := rfl
@[simp] theorem latchClass_det (t : Triplet) (j : JackState) (s : State) :
    (latchClass t j s).det = s.det := rfl
@[simp] theorem latchClass_slot (t : Triplet) (j : JackState) (s : State) :
    (latchClass t j s).slot = s.slot := rfl
@[simp] theorem latchClass_mode (t : Triplet) (j : JackState) (s : State) :
    (latchClass t j s).mode = s.mode := rfl
@[simp] theorem latchClass_cacheOnly (t : Triplet) (j : JackState) (s : State) :
    (latchClass t j s).cacheOnly = s.cacheOnly := rfl
@[simp] theorem latchClass_isr (t : Triplet) (j : JackState) (s : State) :
    (latchClass t j s).isr = s.isr := rfl
@[simp] theorem latchClass_wpc (t : Triplet) (j : JackState) (s : State) :
    (latchClass t j s).wpc = s.wpc := rfl
@[simp] theorem latchClass_lpc (t : Triplet) (j : JackState) (s : State) :
    (latchClass t j s).lpc = s.lpc := rfl
@[simp] theorem latchClass_loc (t : Triplet) (j : JackState) (s : State) :
    (latchClass t j s).loc = { s.loc with trip := some t, newState := some j } := rfl
@[simp] theorem latchClass_hw (t : Triplet) (j : JackState) (s : State) :
    (latchClass t j s).hw = s.hw := rfl
@[simp] theorem latchClass_shadow (t : Triplet) (j : JackState) (s : State) :
    (latchClass t j s).shadow = s.shadow := rfl
@[simp] theorem latchClass_faults (t : Triplet) (j : JackState) (s : State) :
    (latchClass t j s).faults = s.faults := rfl
@[simp] theorem latchClass_trace (t : Triplet) (j : JackState) (s : State) :
    (latchClass t j s).trace = s.trace := rfl
@[simp] theorem latchClass_env (t : Triplet) (j : JackState) (s : State) :
    (latchClass t j s).env = s.env := rfl
@[simp] theorem latchClass_draws (t : Triplet) (j : JackState) (s : State) :
    (latchClass t j s).draws = s.draws := rfl
@[simp] theorem latchClass_order (t : Triplet) (j : JackState) (s : State) :
    (latchClass t j s).order = s.order := rfl
@[simp] theorem latchClass_script (t : Triplet) (j : JackState) (s : State) :
    (latchClass t j s).script = s.script := rfl
@[simp] theorem latchClass_latch (t : Triplet) (j : JackState) (s : State) :
    (latchClass t j s).latch = s.latch := rfl
@[simp] theorem latchClass_source (t : Triplet) (j : JackState) (s : State) :
    (latchClass t j s).source = s.source := rfl

/-! ## latchKeyscan -/

@[simp] theorem latchKeyscan_cfg (k : Byte) (s : State) :
    (latchKeyscan k s).cfg = s.cfg := rfl
@[simp] theorem latchKeyscan_jack (k : Byte) (s : State) :
    (latchKeyscan k s).jack = s.jack := rfl
@[simp] theorem latchKeyscan_retry (k : Byte) (s : State) :
    (latchKeyscan k s).retry = s.retry := rfl
@[simp] theorem latchKeyscan_ignoreNext (k : Byte) (s : State) :
    (latchKeyscan k s).ignoreNext = s.ignoreNext := rfl
@[simp] theorem latchKeyscan_snap (k : Byte) (s : State) :
    (latchKeyscan k s).snap = s.snap := rfl
@[simp] theorem latchKeyscan_det (k : Byte) (s : State) :
    (latchKeyscan k s).det = s.det := rfl
@[simp] theorem latchKeyscan_slot (k : Byte) (s : State) :
    (latchKeyscan k s).slot = s.slot := rfl
@[simp] theorem latchKeyscan_mode (k : Byte) (s : State) :
    (latchKeyscan k s).mode = s.mode := rfl
@[simp] theorem latchKeyscan_cacheOnly (k : Byte) (s : State) :
    (latchKeyscan k s).cacheOnly = s.cacheOnly := rfl
@[simp] theorem latchKeyscan_isr (k : Byte) (s : State) :
    (latchKeyscan k s).isr = s.isr := rfl
@[simp] theorem latchKeyscan_wpc (k : Byte) (s : State) :
    (latchKeyscan k s).wpc = s.wpc := rfl
@[simp] theorem latchKeyscan_lpc (k : Byte) (s : State) :
    (latchKeyscan k s).lpc = s.lpc := rfl
@[simp] theorem latchKeyscan_loc (k : Byte) (s : State) :
    (latchKeyscan k s).loc = { s.loc with ks := some k, mapped := some (adcMap s.cfg k) } := rfl
@[simp] theorem latchKeyscan_hw (k : Byte) (s : State) :
    (latchKeyscan k s).hw = s.hw := rfl
@[simp] theorem latchKeyscan_shadow (k : Byte) (s : State) :
    (latchKeyscan k s).shadow = s.shadow := rfl
@[simp] theorem latchKeyscan_faults (k : Byte) (s : State) :
    (latchKeyscan k s).faults = s.faults := rfl
@[simp] theorem latchKeyscan_trace (k : Byte) (s : State) :
    (latchKeyscan k s).trace = s.trace := rfl
@[simp] theorem latchKeyscan_env (k : Byte) (s : State) :
    (latchKeyscan k s).env = s.env := rfl
@[simp] theorem latchKeyscan_draws (k : Byte) (s : State) :
    (latchKeyscan k s).draws = s.draws := rfl
@[simp] theorem latchKeyscan_order (k : Byte) (s : State) :
    (latchKeyscan k s).order = s.order := rfl
@[simp] theorem latchKeyscan_script (k : Byte) (s : State) :
    (latchKeyscan k s).script = s.script := rfl
@[simp] theorem latchKeyscan_latch (k : Byte) (s : State) :
    (latchKeyscan k s).latch = s.latch := rfl
@[simp] theorem latchKeyscan_source (k : Byte) (s : State) :
    (latchKeyscan k s).source = s.source := rfl

/-! ## latchButton -/

@[simp] theorem latchButton_cfg (k : Byte) (b : KeyChoice) (s : State) :
    (latchButton k b s).cfg = s.cfg := rfl
@[simp] theorem latchButton_jack (k : Byte) (b : KeyChoice) (s : State) :
    (latchButton k b s).jack = s.jack := rfl
@[simp] theorem latchButton_retry (k : Byte) (b : KeyChoice) (s : State) :
    (latchButton k b s).retry = s.retry := rfl
@[simp] theorem latchButton_ignoreNext (k : Byte) (b : KeyChoice) (s : State) :
    (latchButton k b s).ignoreNext = s.ignoreNext := rfl
@[simp] theorem latchButton_snap (k : Byte) (b : KeyChoice) (s : State) :
    (latchButton k b s).snap = s.snap := rfl
@[simp] theorem latchButton_det (k : Byte) (b : KeyChoice) (s : State) :
    (latchButton k b s).det = s.det := rfl
@[simp] theorem latchButton_slot (k : Byte) (b : KeyChoice) (s : State) :
    (latchButton k b s).slot = s.slot := rfl
@[simp] theorem latchButton_mode (k : Byte) (b : KeyChoice) (s : State) :
    (latchButton k b s).mode = s.mode := rfl
@[simp] theorem latchButton_cacheOnly (k : Byte) (b : KeyChoice) (s : State) :
    (latchButton k b s).cacheOnly = s.cacheOnly := rfl
@[simp] theorem latchButton_isr (k : Byte) (b : KeyChoice) (s : State) :
    (latchButton k b s).isr = s.isr := rfl
@[simp] theorem latchButton_wpc (k : Byte) (b : KeyChoice) (s : State) :
    (latchButton k b s).wpc = s.wpc := rfl
@[simp] theorem latchButton_lpc (k : Byte) (b : KeyChoice) (s : State) :
    (latchButton k b s).lpc = s.lpc := rfl
@[simp] theorem latchButton_loc (k : Byte) (b : KeyChoice) (s : State) :
    (latchButton k b s).loc = { s.loc with mapped := some (adcMap s.cfg k), button := some b } := rfl
@[simp] theorem latchButton_hw (k : Byte) (b : KeyChoice) (s : State) :
    (latchButton k b s).hw = s.hw := rfl
@[simp] theorem latchButton_shadow (k : Byte) (b : KeyChoice) (s : State) :
    (latchButton k b s).shadow = s.shadow := rfl
@[simp] theorem latchButton_faults (k : Byte) (b : KeyChoice) (s : State) :
    (latchButton k b s).faults = s.faults := rfl
@[simp] theorem latchButton_trace (k : Byte) (b : KeyChoice) (s : State) :
    (latchButton k b s).trace = s.trace := rfl
@[simp] theorem latchButton_env (k : Byte) (b : KeyChoice) (s : State) :
    (latchButton k b s).env = s.env := rfl
@[simp] theorem latchButton_draws (k : Byte) (b : KeyChoice) (s : State) :
    (latchButton k b s).draws = s.draws := rfl
@[simp] theorem latchButton_order (k : Byte) (b : KeyChoice) (s : State) :
    (latchButton k b s).order = s.order := rfl
@[simp] theorem latchButton_script (k : Byte) (b : KeyChoice) (s : State) :
    (latchButton k b s).script = s.script := rfl
@[simp] theorem latchButton_latch (k : Byte) (b : KeyChoice) (s : State) :
    (latchButton k b s).latch = s.latch := rfl
@[simp] theorem latchButton_source (k : Byte) (b : KeyChoice) (s : State) :
    (latchButton k b s).source = s.source := rfl

/-! ## Updates that are another one -/

@[simp] theorem log_eq_emit (k : LogKind) (s : State) : log k s = emit (.log k) s := rfl

@[simp] theorem report_eq_emit (r : Report) (s : State) : report r s = emit (.rep r) s := rfl

@[simp] theorem takeInterrupt_eq (s : State) : takeInterrupt s = setIsr .read s := rfl

@[simp] theorem returnFromInterrupt_eq (s : State) : returnFromInterrupt s = setIsr .off s := rfl

end Sys2Proof.Machine
end

