-- ==== Sys2Proof/Laws/Ops.lean ====
section
/-! SUPPORT. For each shared operation, one lemma that says everything it can do; callers cite these and do
not unfold the operation. -/

namespace Sys2Proof.Machine

/-! ## What the port may change -/

/-- `t` is `s` but for the codec's registers, the cache, the trace and the environment's bookkeeping. -/
def OnlyPort (s t : State) : Prop :=
  t = { s with hw := t.hw, shadow := t.shadow, trace := t.trace, env := t.env, draws := t.draws }

theorem OnlyPort.refl (s : State) : OnlyPort s s := rfl

theorem OnlyPort.trans {s t u : State} (h1 : OnlyPort s t) (h2 : OnlyPort t u) : OnlyPort s u := by
  unfold OnlyPort at *
  rw [h2, h1]

section
variable {s t : State} (h : OnlyPort s t)
include h
theorem OnlyPort.cfg : t.cfg = s.cfg := by rw [h]
theorem OnlyPort.jack : t.jack = s.jack := by rw [h]
theorem OnlyPort.retry : t.retry = s.retry := by rw [h]
theorem OnlyPort.ignoreNext : t.ignoreNext = s.ignoreNext := by rw [h]
theorem OnlyPort.snap : t.snap = s.snap := by rw [h]
theorem OnlyPort.det : t.det = s.det := by rw [h]
theorem OnlyPort.slot : t.slot = s.slot := by rw [h]
theorem OnlyPort.mode : t.mode = s.mode := by rw [h]
theorem OnlyPort.cacheOnly : t.cacheOnly = s.cacheOnly := by rw [h]
theorem OnlyPort.isr : t.isr = s.isr := by rw [h]
theorem OnlyPort.wpc : t.wpc = s.wpc := by rw [h]
theorem OnlyPort.lpc : t.lpc = s.lpc := by rw [h]
theorem OnlyPort.loc : t.loc = s.loc := by rw [h]
theorem OnlyPort.faults : t.faults = s.faults := by rw [h]
theorem OnlyPort.order : t.order = s.order := by rw [h]
theorem OnlyPort.script : t.script = s.script := by rw [h]
theorem OnlyPort.latch : t.latch = s.latch := by rw [h]
theorem OnlyPort.source : t.source = s.source := by rw [h]
end

/-! ## Draws -/

theorem succeeds_of_no_fail {c : Cfg} (h : c.ioFail = false) (b : Bool) : succeeds c b = true := by
  simp [succeeds, h]

/-- A write's outcome uses up only environment bookkeeping, and is a success where the environment may not
fail a transaction (R55). -/
theorem writeAnswer_spec (a : Byte) (s : State) :
    ∃ ok taken e d, writeAnswer a s = (ok, taken, { s with env := e, draws := d })
      ∧ (s.cfg.ioFail = false → ok = true) := by
  unfold writeAnswer
  split
  · split
    · exact ⟨_, _, _, _, rfl, fun h => succeeds_of_no_fail h _⟩
    · exact ⟨true, true, s.env, s.draws, rfl, fun _ => rfl⟩
  · exact ⟨_, _, s.env, _, rfl, fun h => succeeds_of_no_fail h _⟩

/-- A read's answer uses up only environment bookkeeping; outside a script there always is one. -/
theorem readAnswer_spec (a : Byte) (s : State) :
    (readAnswer a s = none ∧ s.env.scripted = true ∧ takeAnswer a s.env.reads = none) ∨
    ∃ ok v e d, readAnswer a s = some (ok, v, { s with env := e, draws := d }) := by
  unfold readAnswer
  by_cases hs : s.env.scripted = true
  · simp only [hs, if_true]
    cases ht : takeAnswer a s.env.reads with
    | none => exact .inl ⟨rfl, trivial, rfl⟩
    | some p => exact .inr ⟨_, _, _, _, rfl⟩
  · rw [if_neg hs]
    exact .inr ⟨_, _, s.env, _, rfl⟩

/-- A queue with an entry for an address gives an answer. -/
theorem takeAnswer_isSome {a : Byte} {q : List Answer} (h : ∃ x ∈ q, x.addr = a) :
    ∃ p, takeAnswer a q = some p := by
  induction q with
  | nil => obtain ⟨x, hx, _⟩ := h; cases hx
  | cons y q ih =>
    unfold takeAnswer
    by_cases hy : y.addr = a
    · exact ⟨_, if_pos hy⟩
    · rw [if_neg hy]
      obtain ⟨x, hx, hxa⟩ := h
      rcases List.mem_cons.mp hx with h1 | h1
      · exact absurd (h1 ▸ hxa) hy
      · obtain ⟨p, hp⟩ := ih ⟨x, h1, hxa⟩
        rw [hp]
        exact ⟨_, rfl⟩

/-! ## Cache and records -/

theorem cacheBits_volatile {a : Byte} {s : State} (h : isVolatile s.cfg a = true) (m v : Byte) :
    cacheBits a m v s = s := by simp [cacheBits, h]

theorem cacheBits_nonvolatile {a : Byte} {s : State} (h : isVolatile s.cfg a = false) (m v : Byte) :
    cacheBits a m v s = { s with shadow := RegFile.setBits s.shadow a m v } := by simp [cacheBits, h]

/-- In either case `cacheBits` is an update of `shadow` alone. -/
theorem cacheBits_eq (a m v : Byte) (s : State) :
    cacheBits a m v s =
      { s with shadow := if isVolatile s.cfg a then s.shadow else RegFile.setBits s.shadow a m v } := by
  unfold cacheBits
  split <;> rfl

theorem logIo_eq (ok : Bool) (a : Byte) (s : State) :
    logIo ok a s = { s with trace := s.trace ++ if ok then [] else [.log (.ioError a)] } := by
  cases ok
  · rfl
  · simp [logIo]

/-! ## The port primitives -/

/-- Everything a store can do (R53, R54, R55): in cache-only mode it sets the cache; over the bus it sets
both copies when it succeeds, and the codec's or nothing when it fails. -/
theorem portStore_spec (op : PortOp) (a m v : Byte) (s : State) :
    (s.cacheOnly = true ∧ portStore op a m v s =
      { s with
        shadow := if isVolatile s.cfg a then s.shadow else RegFile.setBits s.shadow a m v
        trace := s.trace ++ [.port op true (some .cached)] }) ∨
    (s.cacheOnly = false ∧ ∃ ok taken e d, (s.cfg.ioFail = false → ok = true) ∧ portStore op a m v s =
      { s with
        hw := if ok || taken then RegFile.setBits s.hw a m v else s.hw
        shadow := if ok && !isVolatile s.cfg a then RegFile.setBits s.shadow a m v else s.shadow
        trace := s.trace ++ (.port op ok (some .bus) :: if ok then [] else [.log (.ioError a)])
        env := e
        draws := d }) := by
  cases hc : s.cacheOnly
  · right
    obtain ⟨ok, taken, e, d, hw, hok⟩ := writeAnswer_spec a s
    refine ⟨rfl, ok, taken, e, d, hok, ?_⟩
    simp only [portStore, hc, hw, logIo_eq, cacheBits_eq, codecBits, emit]
    cases ok <;> cases taken <;> cases hv : isVolatile s.cfg a <;> simp [hv]
  · left
    refine ⟨rfl, ?_⟩
    simp [portStore, hc, cacheBits_eq, emit]

theorem portStore_onlyPort (op : PortOp) (a m v : Byte) (s : State) : OnlyPort s (portStore op a m v s) := by
  rcases portStore_spec op a m v s with ⟨_, h⟩ | ⟨_, _, _, _, _, _, h⟩ <;> rw [h] <;> rfl

theorem portIssue_onlyPort (op : StoreOp) (s : State) : OnlyPort s (portIssue op s) := by
  cases op <;> exact portStore_onlyPort _ _ _ _ _

theorem portWrite_onlyPort (a v : Byte) (s : State) : OnlyPort s (portWrite a v s) :=
  portStore_onlyPort _ _ _ _ _

theorem portUpdate_onlyPort (a m v : Byte) (s : State) : OnlyPort s (portUpdate a m v s) :=
  portStore_onlyPort _ _ _ _ _

/-- Everything a read can do (R52, R55). -/
theorem portRead_spec (a : Byte) (s : State) :
    (∃ v, cachedByte s a = some v ∧
      portRead a s = some (true, v, emit (.port (.read a v) true (some .cached)) s)) ∨
    (cachedByte s a = none ∧ s.env.scripted = true ∧ takeAnswer a s.env.reads = none ∧ portRead a s = none) ∨
    (cachedByte s a = none ∧ s.cacheOnly = true ∧ ∃ v e d, portRead a s = some (false, v,
      { s with
        trace := s.trace ++ [.port (.read a v) false (some .cached), .log (.ioError a)]
        env := e
        draws := d })) ∨
    (cachedByte s a = none ∧ s.cacheOnly = false ∧ ∃ ok v e d, (s.cfg.ioFail = false → ok = true) ∧
      portRead a s = some (ok, v,
        { s with
          shadow := if ok && !isVolatile s.cfg a then RegFile.setBits s.shadow a 0xFF v else s.shadow
          trace := s.trace ++ (.port (.read a v) ok (some .bus) :: if ok then [] else [.log (.ioError a)])
          env := e
          draws := d })) := by
  cases hcb : cachedByte s a with
  | some v => exact .inl ⟨v, rfl, by simp [portRead, hcb]⟩
  | none =>
    right
    rcases readAnswer_spec a s with ⟨h1, h2, h3⟩ | ⟨answer, v, e, d, h1⟩
    · exact .inl ⟨rfl, h2, h3, by simp [portRead, hcb, h1]⟩
    · right
      cases hc : s.cacheOnly
      · right
        refine ⟨rfl, rfl, succeeds s.cfg answer, v, e, d, fun h => succeeds_of_no_fail h _, ?_⟩
        simp only [portRead, hcb, h1, hc, logIo_eq, emit, cacheBits_eq]
        cases succeeds s.cfg answer <;> cases isVolatile s.cfg a <;> simp
      · left
        refine ⟨rfl, rfl, v, e, d, ?_⟩
        simp [portRead, hcb, h1, hc, logIo_eq, emit]

theorem portRead_onlyPort {a : Byte} {s t : State} {ok : Bool} {v : Byte}
    (h : portRead a s = some (ok, v, t)) : OnlyPort s t := by
  rcases portRead_spec a s with ⟨_, _, h1⟩ | ⟨_, _, _, h1⟩ | ⟨_, _, _, _, _, h1⟩ | ⟨_, _, _, _, _, _, _, h1⟩ <;>
    rw [h1] at h <;> cases h <;> rfl

theorem portCacheOnly_eq (b : Bool) (s : State) :
    portCacheOnly b s =
      { s with cacheOnly := b, trace := s.trace ++ [.port (.cacheOnly b) true none] } := rfl

/-! ## Work slot, reports, power -/

/-- `Schedule(d)` changes only the slot and the trace (R103). -/
theorem schedule_eq (d : Nat) (s : State) :
    schedule d s =
      { s with
        slot := (slotSchedule d s.slot).1
        trace := s.trace ++ [.sched d (slotSchedule d s.slot).2] } := rfl

/-- `ReportState(n)` changes only `st.jack` and the trace (R134). -/
theorem reportState_eq (j n : JackState) (s : State) :
    reportState j n s =
      { s with
        jack := some n
        trace := s.trace ++ if n = j then [] else [.rep (.jack n)] } := by
  unfold reportState
  split <;> simp [report, emit]

/-- `PowerCall(c)` changes only the trace and environment bookkeeping (R221). -/
theorem powerCall_spec (c : PowerCall) (s : State) :
    ∃ ok e d, powerCall c s =
      { s with
        trace := s.trace ++ (.pwr c ok :: if ok then [] else [.log (.powerError c)])
        env := e
        draws := d } := by
  have h : ∃ ok e d, powerAnswer c s = (ok, { s with env := e, draws := d }) := by
    unfold powerAnswer
    split
    · split
      · exact ⟨_, _, s.draws, rfl⟩
      · exact ⟨true, s.env, s.draws, rfl⟩
    · exact ⟨_, s.env, _, rfl⟩
  obtain ⟨ok, e, d, h⟩ := h
  refine ⟨ok, e, d, ?_⟩
  simp only [powerCall, h]
  cases ok <;> simp [emit, log]

theorem powerCall_onlyPort (c : PowerCall) (s : State) : OnlyPort s (powerCall c s) := by
  obtain ⟨ok, e, d, h⟩ := powerCall_spec c s
  rw [h]
  rfl

/-! ## Unwritten state -/

theorem recordFault_eq (f : ModelFault) (s : State) :
    recordFault f s = { s with faults := if f ∈ s.faults then s.faults else s.faults ++ [f] } := by
  unfold recordFault
  split <;> rfl

/-- A step that reads state that may be unwritten either goes on with its value or records the fault. -/
theorem needWritten_next {α : Type} {x : Option α} {f : ModelFault} {s t : State} {k : α → Result}
    (h : needWritten x f s k = .next t) :
    (∃ v, x = some v ∧ k v = .next t) ∨ (x = none ∧ t = recordFault f s) := by
  cases x with
  | some v => exact .inl ⟨v, rfl, h⟩
  | none => cases h; exact .inr ⟨rfl, rfl⟩

/-! ## Resync -/

/-- One write of a resync touches only the codec's registers and environment bookkeeping. -/
theorem resyncCell_spec (acc : Bool × State) (c : Host.Cell) :
    ∃ ok h e d, resyncCell acc c = (ok, { acc.2 with hw := h, env := e, draws := d }) := by
  obtain ⟨b, s⟩ := acc
  simp only [resyncCell]
  split
  · exact ⟨b, s.hw, s.env, s.draws, rfl⟩
  · obtain ⟨ok, taken, e, d, hw, _⟩ := writeAnswer_spec (BitVec.ofNat 8 c.1) s
    rw [hw]
    dsimp only
    split
    · exact ⟨_, _, e, d, rfl⟩
    · exact ⟨_, s.hw, e, d, rfl⟩

theorem resyncFold_spec (cs : List Host.Cell) (acc : Bool × State) :
    ∃ ok h e d, cs.foldl resyncCell acc = (ok, { acc.2 with hw := h, env := e, draws := d }) := by
  induction cs generalizing acc with
  | nil => exact ⟨acc.1, acc.2.hw, acc.2.env, acc.2.draws, rfl⟩
  | cons c cs ih =>
    obtain ⟨ok, h, e, d, h1⟩ := resyncCell_spec acc c
    obtain ⟨ok', h', e', d', h2⟩ := ih (resyncCell acc c)
    refine ⟨ok', h', e', d', ?_⟩
    rw [List.foldl_cons, h2, h1]

/-- A resync touches the codec's registers, the trace and environment bookkeeping (R58). -/
theorem portResync_spec (s : State) :
    ∃ ok h e d, portResync s =
      { s with
        hw := h
        trace := s.trace ++ (.port .resync ok none :: if ok then [] else [.log (.ioError 0x00)])
        env := e
        draws := d } := by
  obtain ⟨ok, h, e, d, h1⟩ := resyncFold_spec s.shadow.known (true, s)
  refine ⟨ok, h, e, d, ?_⟩
  simp only [portResync, h1, logIo_eq, emit]
  cases ok <;> simp

theorem portResync_onlyPort (s : State) : OnlyPort s (portResync s) := by
  obtain ⟨ok, h, e, d, h1⟩ := portResync_spec s
  rw [h1]
  rfl

/-! ## Canonical form -/

theorem regFilesWf_codec {s : State} (h : RegFile.wf s.hw = true) (a m v : Byte) :
    RegFile.wf (codecBits a m v s).hw = true := RegFile.wf_setBits h a m v

/-- A store keeps both register files canonical. -/
theorem portStore_wf {op : PortOp} {a m v : Byte} {s : State} (hh : RegFile.wf s.hw = true)
    (hs : RegFile.wf s.shadow = true) :
    RegFile.wf (portStore op a m v s).hw = true ∧ RegFile.wf (portStore op a m v s).shadow = true := by
  rcases portStore_spec op a m v s with ⟨_, h⟩ | ⟨_, ok, taken, _, _, _, h⟩ <;> rw [h] <;> dsimp only
  · refine ⟨hh, ?_⟩
    split
    · exact hs
    · exact RegFile.wf_setBits hs _ _ _
  · refine ⟨?_, ?_⟩
    · split
      · exact RegFile.wf_setBits hh _ _ _
      · exact hh
    · split
      · exact RegFile.wf_setBits hs _ _ _
      · exact hs

/-- A read keeps both register files canonical. -/
theorem portRead_wf {a : Byte} {s t : State} {ok : Bool} {v : Byte} (hr : portRead a s = some (ok, v, t))
    (hh : RegFile.wf s.hw = true) (hs : RegFile.wf s.shadow = true) :
    RegFile.wf t.hw = true ∧ RegFile.wf t.shadow = true := by
  rcases portRead_spec a s with ⟨_, _, h⟩ | ⟨_, _, _, h⟩ | ⟨_, _, _, _, _, h⟩ | ⟨_, _, _, _, _, _, _, h⟩ <;>
    rw [h] at hr <;> cases hr
  · exact ⟨hh, hs⟩
  · exact ⟨hh, hs⟩
  · refine ⟨hh, ?_⟩
    dsimp only
    split
    · exact RegFile.wf_setBits hs _ _ _
    · exact hs

theorem resyncCell_wf {acc : Bool × State} {c : Host.Cell} (hh : RegFile.wf acc.2.hw = true) :
    RegFile.wf (resyncCell acc c).2.hw = true := by
  obtain ⟨b, s⟩ := acc
  simp only [resyncCell]
  split
  · exact hh
  · obtain ⟨ok, taken, e, d, hw, _⟩ := writeAnswer_spec (BitVec.ofNat 8 c.1) s
    rw [hw]
    dsimp only
    split
    · exact RegFile.wf_setBits hh _ _ _
    · exact hh

/-- A resync keeps both register files canonical. -/
theorem portResync_wf {s : State} (hh : RegFile.wf s.hw = true) (hs : RegFile.wf s.shadow = true) :
    RegFile.wf (portResync s).hw = true ∧ RegFile.wf (portResync s).shadow = true := by
  have hf : ∀ (cs : List Host.Cell) (acc : Bool × State), RegFile.wf acc.2.hw = true →
      RegFile.wf (cs.foldl resyncCell acc).2.hw = true := by
    intro cs
    induction cs with
    | nil => intro acc h; exact h
    | cons c cs ih => intro acc h; exact ih _ (resyncCell_wf h)
  have h1 := hf s.shadow.known (true, s) hh
  obtain ⟨ok, h, e, d, h2⟩ := resyncFold_spec s.shadow.known (true, s)
  rw [h2] at h1
  have hps : portResync s = logIo ok 0x00 (emit (.port .resync ok none) { s with hw := h, env := e, draws := d }) := by
    simp only [portResync, h2]
  rw [hps, logIo_eq]
  exact ⟨h1, hs⟩

end Sys2Proof.Machine
end

