-- ==== Sys2Proof/Laws/Fields.lean ====
section
/-! SUPPORT. One lemma per field for the operations that write one or two fields of the state. -/

namespace Sys2Proof.Machine

/-- `KeyDecode` writes the trace and the working values only (43_key_decoder.md R204). -/
theorem keyDecode_eq (s0 s1 ks : Byte) (s : State) :
    keyDecode s0 s1 ks s =
      { s with trace := (keyDecode s0 s1 ks s).trace, loc := (keyDecode s0 s1 ks s).loc } := by
  unfold keyDecode
  split
  · dsimp only
    split <;> rfl
  · rfl

/-! ## recordFault -/

@[simp] theorem recordFault_cfg (f : ModelFault) (s : State) : (recordFault f s).cfg = s.cfg := by
  unfold recordFault
  split <;> rfl
@[simp] theorem recordFault_jack (f : ModelFault) (s : State) : (recordFault f s).jack = s.jack := by
  unfold recordFault
  split <;> rfl
@[simp] theorem recordFault_retry (f : ModelFault) (s : State) : (recordFault f s).retry = s.retry := by
  unfold recordFault
  split <;> rfl
@[simp] theorem recordFault_ignoreNext (f : ModelFault) (s : State) : (recordFault f s).ignoreNext = s.ignoreNext := by
  unfold recordFault
  split <;> rfl
@[simp] theorem recordFault_snap (f : ModelFault) (s : State) : (recordFault f s).snap = s.snap := by
  unfold recordFault
  split <;> rfl
@[simp] theorem recordFault_det (f : ModelFault) (s : State) : (recordFault f s).det = s.det := by
  unfold recordFault
  split <;> rfl
@[simp] theorem recordFault_slot (f : ModelFault) (s : State) : (recordFault f s).slot = s.slot := by
  unfold recordFault
  split <;> rfl
@[simp] theorem recordFault_mode (f : ModelFault) (s : State) : (recordFault f s).mode = s.mode := by
  unfold recordFault
  split <;> rfl
@[simp] theorem recordFault_cacheOnly (f : ModelFault) (s : State) : (recordFault f s).cacheOnly = s.cacheOnly := by
  unfold recordFault
  split <;> rfl
@[simp] theorem recordFault_isr (f : ModelFault) (s : State) : (recordFault f s).isr = s.isr := by
  unfold recordFault
  split <;> rfl
@[simp] theorem recordFault_wpc (f : ModelFault) (s : State) : (recordFault f s).wpc = s.wpc := by
  unfold recordFault
  split <;> rfl
@[simp] theorem recordFault_lpc (f : ModelFault) (s : State) : (recordFault f s).lpc = s.lpc := by
  unfold recordFault
  split <;> rfl
@[simp] theorem recordFault_loc (f : ModelFault) (s : State) : (recordFault f s).loc = s.loc := by
  unfold recordFault
  split <;> rfl
@[simp] theorem recordFault_hw (f : ModelFault) (s : State) : (recordFault f s).hw = s.hw := by
  unfold recordFault
  split <;> rfl
@[simp] theorem recordFault_shadow (f : ModelFault) (s : State) : (recordFault f s).shadow = s.shadow := by
  unfold recordFault
  split <;> rfl
@[simp] theorem recordFault_trace (f : ModelFault) (s : State) : (recordFault f s).trace = s.trace := by
  unfold recordFault
  split <;> rfl
@[simp] theorem recordFault_env (f : ModelFault) (s : State) : (recordFault f s).env = s.env := by
  unfold recordFault
  split <;> rfl
@[simp] theorem recordFault_draws (f : ModelFault) (s : State) : (recordFault f s).draws = s.draws := by
  unfold recordFault
  split <;> rfl
@[simp] theorem recordFault_order (f : ModelFault) (s : State) : (recordFault f s).order = s.order := by
  unfold recordFault
  split <;> rfl
@[simp] theorem recordFault_script (f : ModelFault) (s : State) : (recordFault f s).script = s.script := by
  unfold recordFault
  split <;> rfl
@[simp] theorem recordFault_latch (f : ModelFault) (s : State) : (recordFault f s).latch = s.latch := by
  unfold recordFault
  split <;> rfl
@[simp] theorem recordFault_source (f : ModelFault) (s : State) : (recordFault f s).source = s.source := by
  unfold recordFault
  split <;> rfl

/-! ## reportState -/

@[simp] theorem reportState_cfg (j n : JackState) (s : State) : (reportState j n s).cfg = s.cfg := by
  rw [reportState_eq]
@[simp] theorem reportState_retry (j n : JackState) (s : State) : (reportState j n s).retry = s.retry := by
  rw [reportState_eq]
@[simp] theorem reportState_ignoreNext (j n : JackState) (s : State) : (reportState j n s).ignoreNext = s.ignoreNext := by
  rw [reportState_eq]
@[simp] theorem reportState_snap (j n : JackState) (s : State) : (reportState j n s).snap = s.snap := by
  rw [reportState_eq]
@[simp] theorem reportState_det (j n : JackState) (s : State) : (reportState j n s).det = s.det := by
  rw [reportState_eq]
@[simp] theorem reportState_slot (j n : JackState) (s : State) : (reportState j n s).slot = s.slot := by
  rw [reportState_eq]
@[simp] theorem reportState_mode (j n : JackState) (s : State) : (reportState j n s).mode = s.mode := by
  rw [reportState_eq]
@[simp] theorem reportState_cacheOnly (j n : JackState) (s : State) : (reportState j n s).cacheOnly = s.cacheOnly := by
  rw [reportState_eq]
@[simp] theorem reportState_isr (j n : JackState) (s : State) : (reportState j n s).isr = s.isr := by
  rw [reportState_eq]
@[simp] theorem reportState_wpc (j n : JackState) (s : State) : (reportState j n s).wpc = s.wpc := by
  rw [reportState_eq]
@[simp] theorem reportState_lpc (j n : JackState) (s : State) : (reportState j n s).lpc = s.lpc := by
  rw [reportState_eq]
@[simp] theorem reportState_loc (j n : JackState) (s : State) : (reportState j n s).loc = s.loc := by
  rw [reportState_eq]
@[simp] theorem reportState_hw (j n : JackState) (s : State) : (reportState j n s).hw = s.hw := by
  rw [reportState_eq]
@[simp] theorem reportState_shadow (j n : JackState) (s : State) : (reportState j n s).shadow = s.shadow := by
  rw [reportState_eq]
@[simp] theorem reportState_faults (j n : JackState) (s : State) : (reportState j n s).faults = s.faults := by
  rw [reportState_eq]
@[simp] theorem reportState_env (j n : JackState) (s : State) : (reportState j n s).env = s.env := by
  rw [reportState_eq]
@[simp] theorem reportState_draws (j n : JackState) (s : State) : (reportState j n s).draws = s.draws := by
  rw [reportState_eq]
@[simp] theorem reportState_order (j n : JackState) (s : State) : (reportState j n s).order = s.order := by
  rw [reportState_eq]
@[simp] theorem reportState_script (j n : JackState) (s : State) : (reportState j n s).script = s.script := by
  rw [reportState_eq]
@[simp] theorem reportState_latch (j n : JackState) (s : State) : (reportState j n s).latch = s.latch := by
  rw [reportState_eq]
@[simp] theorem reportState_source (j n : JackState) (s : State) : (reportState j n s).source = s.source := by
  rw [reportState_eq]

/-! ## reportClass -/

@[simp] theorem reportClass_cfg (j : JackState) (t : Triplet) (s : State) : (reportClass j t s).cfg = s.cfg := by
  simp [reportClass]
@[simp] theorem reportClass_retry (j : JackState) (t : Triplet) (s : State) : (reportClass j t s).retry = s.retry := by
  simp [reportClass]
@[simp] theorem reportClass_ignoreNext (j : JackState) (t : Triplet) (s : State) : (reportClass j t s).ignoreNext = s.ignoreNext := by
  simp [reportClass]
@[simp] theorem reportClass_snap (j : JackState) (t : Triplet) (s : State) : (reportClass j t s).snap = s.snap := by
  simp [reportClass]
@[simp] theorem reportClass_det (j : JackState) (t : Triplet) (s : State) : (reportClass j t s).det = s.det := by
  simp [reportClass]
@[simp] theorem reportClass_slot (j : JackState) (t : Triplet) (s : State) : (reportClass j t s).slot = s.slot := by
  simp [reportClass]
@[simp] theorem reportClass_mode (j : JackState) (t : Triplet) (s : State) : (reportClass j t s).mode = s.mode := by
  simp [reportClass]
@[simp] theorem reportClass_cacheOnly (j : JackState) (t : Triplet) (s : State) : (reportClass j t s).cacheOnly = s.cacheOnly := by
  simp [reportClass]
@[simp] theorem reportClass_isr (j : JackState) (t : Triplet) (s : State) : (reportClass j t s).isr = s.isr := by
  simp [reportClass]
@[simp] theorem reportClass_wpc (j : JackState) (t : Triplet) (s : State) : (reportClass j t s).wpc = s.wpc := by
  simp [reportClass]
@[simp] theorem reportClass_lpc (j : JackState) (t : Triplet) (s : State) : (reportClass j t s).lpc = s.lpc := by
  simp [reportClass]
@[simp] theorem reportClass_hw (j : JackState) (t : Triplet) (s : State) : (reportClass j t s).hw = s.hw := by
  simp [reportClass]
@[simp] theorem reportClass_shadow (j : JackState) (t : Triplet) (s : State) : (reportClass j t s).shadow = s.shadow := by
  simp [reportClass]
@[simp] theorem reportClass_faults (j : JackState) (t : Triplet) (s : State) : (reportClass j t s).faults = s.faults := by
  simp [reportClass]
@[simp] theorem reportClass_env (j : JackState) (t : Triplet) (s : State) : (reportClass j t s).env = s.env := by
  simp [reportClass]
@[simp] theorem reportClass_draws (j : JackState) (t : Triplet) (s : State) : (reportClass j t s).draws = s.draws := by
  simp [reportClass]
@[simp] theorem reportClass_order (j : JackState) (t : Triplet) (s : State) : (reportClass j t s).order = s.order := by
  simp [reportClass]
@[simp] theorem reportClass_script (j : JackState) (t : Triplet) (s : State) : (reportClass j t s).script = s.script := by
  simp [reportClass]
@[simp] theorem reportClass_latch (j : JackState) (t : Triplet) (s : State) : (reportClass j t s).latch = s.latch := by
  simp [reportClass]
@[simp] theorem reportClass_source (j : JackState) (t : Triplet) (s : State) : (reportClass j t s).source = s.source := by
  simp [reportClass]

/-! ## schedule -/

@[simp] theorem schedule_cfg (d : Nat) (s : State) : (schedule d s).cfg = s.cfg := by
  rw [schedule_eq]
@[simp] theorem schedule_jack (d : Nat) (s : State) : (schedule d s).jack = s.jack := by
  rw [schedule_eq]
@[simp] theorem schedule_retry (d : Nat) (s : State) : (schedule d s).retry = s.retry := by
  rw [schedule_eq]
@[simp] theorem schedule_ignoreNext (d : Nat) (s : State) : (schedule d s).ignoreNext = s.ignoreNext := by
  rw [schedule_eq]
@[simp] theorem schedule_snap (d : Nat) (s : State) : (schedule d s).snap = s.snap := by
  rw [schedule_eq]
@[simp] theorem schedule_det (d : Nat) (s : State) : (schedule d s).det = s.det := by
  rw [schedule_eq]
@[simp] theorem schedule_mode (d : Nat) (s : State) : (schedule d s).mode = s.mode := by
  rw [schedule_eq]
@[simp] theorem schedule_cacheOnly (d : Nat) (s : State) : (schedule d s).cacheOnly = s.cacheOnly := by
  rw [schedule_eq]
@[simp] theorem schedule_isr (d : Nat) (s : State) : (schedule d s).isr = s.isr := by
  rw [schedule_eq]
@[simp] theorem schedule_wpc (d : Nat) (s : State) : (schedule d s).wpc = s.wpc := by
  rw [schedule_eq]
@[simp] theorem schedule_lpc (d : Nat) (s : State) : (schedule d s).lpc = s.lpc := by
  rw [schedule_eq]
@[simp] theorem schedule_loc (d : Nat) (s : State) : (schedule d s).loc = s.loc := by
  rw [schedule_eq]
@[simp] theorem schedule_hw (d : Nat) (s : State) : (schedule d s).hw = s.hw := by
  rw [schedule_eq]
@[simp] theorem schedule_shadow (d : Nat) (s : State) : (schedule d s).shadow = s.shadow := by
  rw [schedule_eq]
@[simp] theorem schedule_faults (d : Nat) (s : State) : (schedule d s).faults = s.faults := by
  rw [schedule_eq]
@[simp] theorem schedule_env (d : Nat) (s : State) : (schedule d s).env = s.env := by
  rw [schedule_eq]
@[simp] theorem schedule_draws (d : Nat) (s : State) : (schedule d s).draws = s.draws := by
  rw [schedule_eq]
@[simp] theorem schedule_order (d : Nat) (s : State) : (schedule d s).order = s.order := by
  rw [schedule_eq]
@[simp] theorem schedule_script (d : Nat) (s : State) : (schedule d s).script = s.script := by
  rw [schedule_eq]
@[simp] theorem schedule_latch (d : Nat) (s : State) : (schedule d s).latch = s.latch := by
  rw [schedule_eq]
@[simp] theorem schedule_source (d : Nat) (s : State) : (schedule d s).source = s.source := by
  rw [schedule_eq]

/-! ## portCacheOnly -/

@[simp] theorem portCacheOnly_cfg (b : Bool) (s : State) : (portCacheOnly b s).cfg = s.cfg := rfl
@[simp] theorem portCacheOnly_jack (b : Bool) (s : State) : (portCacheOnly b s).jack = s.jack := rfl
@[simp] theorem portCacheOnly_retry (b : Bool) (s : State) : (portCacheOnly b s).retry = s.retry := rfl
@[simp] theorem portCacheOnly_ignoreNext (b : Bool) (s : State) : (portCacheOnly b s).ignoreNext = s.ignoreNext := rfl
@[simp] theorem portCacheOnly_snap (b : Bool) (s : State) : (portCacheOnly b s).snap = s.snap := rfl
@[simp] theorem portCacheOnly_det (b : Bool) (s : State) : (portCacheOnly b s).det = s.det := rfl
@[simp] theorem portCacheOnly_slot (b : Bool) (s : State) : (portCacheOnly b s).slot = s.slot := rfl
@[simp] theorem portCacheOnly_mode (b : Bool) (s : State) : (portCacheOnly b s).mode = s.mode := rfl
@[simp] theorem portCacheOnly_isr (b : Bool) (s : State) : (portCacheOnly b s).isr = s.isr := rfl
@[simp] theorem portCacheOnly_wpc (b : Bool) (s : State) : (portCacheOnly b s).wpc = s.wpc := rfl
@[simp] theorem portCacheOnly_lpc (b : Bool) (s : State) : (portCacheOnly b s).lpc = s.lpc := rfl
@[simp] theorem portCacheOnly_loc (b : Bool) (s : State) : (portCacheOnly b s).loc = s.loc := rfl
@[simp] theorem portCacheOnly_hw (b : Bool) (s : State) : (portCacheOnly b s).hw = s.hw := rfl
@[simp] theorem portCacheOnly_shadow (b : Bool) (s : State) : (portCacheOnly b s).shadow = s.shadow := rfl
@[simp] theorem portCacheOnly_faults (b : Bool) (s : State) : (portCacheOnly b s).faults = s.faults := rfl
@[simp] theorem portCacheOnly_env (b : Bool) (s : State) : (portCacheOnly b s).env = s.env := rfl
@[simp] theorem portCacheOnly_draws (b : Bool) (s : State) : (portCacheOnly b s).draws = s.draws := rfl
@[simp] theorem portCacheOnly_order (b : Bool) (s : State) : (portCacheOnly b s).order = s.order := rfl
@[simp] theorem portCacheOnly_script (b : Bool) (s : State) : (portCacheOnly b s).script = s.script := rfl
@[simp] theorem portCacheOnly_latch (b : Bool) (s : State) : (portCacheOnly b s).latch = s.latch := rfl
@[simp] theorem portCacheOnly_source (b : Bool) (s : State) : (portCacheOnly b s).source = s.source := rfl

/-! ## keyDecode -/

@[simp] theorem keyDecode_cfg (s0 s1 ks : Byte) (s : State) : (keyDecode s0 s1 ks s).cfg = s.cfg := by
  rw [keyDecode_eq]
@[simp] theorem keyDecode_jack (s0 s1 ks : Byte) (s : State) : (keyDecode s0 s1 ks s).jack = s.jack := by
  rw [keyDecode_eq]
@[simp] theorem keyDecode_retry (s0 s1 ks : Byte) (s : State) : (keyDecode s0 s1 ks s).retry = s.retry := by
  rw [keyDecode_eq]
@[simp] theorem keyDecode_ignoreNext (s0 s1 ks : Byte) (s : State) : (keyDecode s0 s1 ks s).ignoreNext = s.ignoreNext := by
  rw [keyDecode_eq]
@[simp] theorem keyDecode_snap (s0 s1 ks : Byte) (s : State) : (keyDecode s0 s1 ks s).snap = s.snap := by
  rw [keyDecode_eq]
@[simp] theorem keyDecode_det (s0 s1 ks : Byte) (s : State) : (keyDecode s0 s1 ks s).det = s.det := by
  rw [keyDecode_eq]
@[simp] theorem keyDecode_slot (s0 s1 ks : Byte) (s : State) : (keyDecode s0 s1 ks s).slot = s.slot := by
  rw [keyDecode_eq]
@[simp] theorem keyDecode_mode (s0 s1 ks : Byte) (s : State) : (keyDecode s0 s1 ks s).mode = s.mode := by
  rw [keyDecode_eq]
@[simp] theorem keyDecode_cacheOnly (s0 s1 ks : Byte) (s : State) : (keyDecode s0 s1 ks s).cacheOnly = s.cacheOnly := by
  rw [keyDecode_eq]
@[simp] theorem keyDecode_isr (s0 s1 ks : Byte) (s : State) : (keyDecode s0 s1 ks s).isr = s.isr := by
  rw [keyDecode_eq]
@[simp] theorem keyDecode_wpc (s0 s1 ks : Byte) (s : State) : (keyDecode s0 s1 ks s).wpc = s.wpc := by
  rw [keyDecode_eq]
@[simp] theorem keyDecode_lpc (s0 s1 ks : Byte) (s : State) : (keyDecode s0 s1 ks s).lpc = s.lpc := by
  rw [keyDecode_eq]
@[simp] theorem keyDecode_hw (s0 s1 ks : Byte) (s : State) : (keyDecode s0 s1 ks s).hw = s.hw := by
  rw [keyDecode_eq]
@[simp] theorem keyDecode_shadow (s0 s1 ks : Byte) (s : State) : (keyDecode s0 s1 ks s).shadow = s.shadow := by
  rw [keyDecode_eq]
@[simp] theorem keyDecode_faults (s0 s1 ks : Byte) (s : State) : (keyDecode s0 s1 ks s).faults = s.faults := by
  rw [keyDecode_eq]
@[simp] theorem keyDecode_env (s0 s1 ks : Byte) (s : State) : (keyDecode s0 s1 ks s).env = s.env := by
  rw [keyDecode_eq]
@[simp] theorem keyDecode_draws (s0 s1 ks : Byte) (s : State) : (keyDecode s0 s1 ks s).draws = s.draws := by
  rw [keyDecode_eq]
@[simp] theorem keyDecode_order (s0 s1 ks : Byte) (s : State) : (keyDecode s0 s1 ks s).order = s.order := by
  rw [keyDecode_eq]
@[simp] theorem keyDecode_script (s0 s1 ks : Byte) (s : State) : (keyDecode s0 s1 ks s).script = s.script := by
  rw [keyDecode_eq]
@[simp] theorem keyDecode_latch (s0 s1 ks : Byte) (s : State) : (keyDecode s0 s1 ks s).latch = s.latch := by
  rw [keyDecode_eq]
@[simp] theorem keyDecode_source (s0 s1 ks : Byte) (s : State) : (keyDecode s0 s1 ks s).source = s.source := by
  rw [keyDecode_eq]

@[simp] theorem reportState_jack (j n : JackState) (s : State) : (reportState j n s).jack = some n := rfl
@[simp] theorem reportClass_jack (j : JackState) (t : Triplet) (s : State) :
    (reportClass j t s).jack = some (classify s.cfg t) := rfl
@[simp] theorem reportClass_loc (j : JackState) (t : Triplet) (s : State) :
    (reportClass j t s).loc = { s.loc with trip := some t, newState := some (classify s.cfg t) } := by
  simp [reportClass, latchClass]
@[simp] theorem schedule_slot (d : Nat) (s : State) : (schedule d s).slot = (slotSchedule d s.slot).1 := rfl
@[simp] theorem portCacheOnly_cacheOnly (b : Bool) (s : State) : (portCacheOnly b s).cacheOnly = b := rfl

end Sys2Proof.Machine
end

