-- ==== Sys2Proof/Laws/Instances.lean ====
section
/-! SUPPORT. What a turn of a system of instances can do (60_exceptions.md R256). -/

namespace Sys2Proof.Machine

/-- A turn of the `n`-th instance is one step of it, or nothing. -/
theorem turn_cases (n : Nat) (y : System) :
    (System.turn n y).instances = y.instances ∨
      ∃ s t, y.instances[n]? = some s ∧ step s = .next t ∧ (System.turn n y).instances = y.instances.set n t := by
  unfold System.turn stepInstance
  cases hs : y.instances[n]? with
  | none => exact .inl rfl
  | some s =>
    cases ht : step s with
    | next t => exact .inr ⟨s, t, rfl, ht, by simp [ht]⟩
    | fault r => exact .inl (by simp [ht])
    | refused r => exact .inl (by simp [ht])

/-- A turn leaves every other instance as it was. -/
theorem turn_other {n k : Nat} (h : k ≠ n) (y : System) :
    (System.turn n y).instances[k]? = y.instances[k]? := by
  rcases turn_cases n y with h1 | ⟨_, _, _, _, h1⟩ <;> rw [h1]
  exact List.getElem?_set_ne (Ne.symm h)

/-- The streams of a system at reset are numbered on. -/
theorem instancesFrom_sources (n : Nat) (cs : List Cfg) :
    (instancesFrom n cs).map State.source = List.range' n cs.length := by
  induction cs generalizing n with
  | nil => rfl
  | cons c cs ih => simp [instancesFrom, ih, List.range'_succ]

/-- At reset every instance has an environment of its own. -/
theorem reset_ownEnvironments (cs : List Cfg) : ownEnvironments (System.reset cs).instances = true := by
  simp [ownEnvironments, System.reset, instancesFrom_sources, List.nodup_range']

end Sys2Proof.Machine
end

