-- ==== Sys2Proof/Laws/PerInstr.lean ====
section
/-! SUPPORT. Statements about every instruction as syntax, one lemma per constructor. -/

namespace Sys2Proof.Laws

/-- The encoding of an instruction has exactly its format's width: "all fixed length" (30_encoding.md R70,
R82). -/
def EncodedWidth.Statement (i : Instr) : Prop := (encode i).bytes.length = formatWidth (encode i).fmt

theorem EncodedWidth.evProbe : EncodedWidth.Statement .evProbe := rfl
theorem EncodedWidth.evIrq : EncodedWidth.Statement .evIrq := rfl
theorem EncodedWidth.evFire : EncodedWidth.Statement .evFire := rfl
theorem EncodedWidth.evSuspend : EncodedWidth.Statement .evSuspend := rfl
theorem EncodedWidth.evResume : EncodedWidth.Statement .evResume := rfl
theorem EncodedWidth.evRemove : EncodedWidth.Statement .evRemove := rfl
theorem EncodedWidth.read (a : Byte) : EncodedWidth.Statement (.read a) := rfl
theorem EncodedWidth.write (a v : Byte) : EncodedWidth.Statement (.write a v) := rfl
theorem EncodedWidth.update (a m v : Byte) : EncodedWidth.Statement (.update a m v) := rfl
theorem EncodedWidth.cacheOnly (b : Bool) : EncodedWidth.Statement (.cacheOnly b) := rfl
theorem EncodedWidth.resync : EncodedWidth.Statement .resync := rfl
theorem EncodedWidth.repJack (j : JackState) : EncodedWidth.Statement (.repJack j) := by
  cases j <;> rfl
theorem EncodedWidth.repButton (b : Button) : EncodedWidth.Statement (.repButton b) := by
  cases b <;> rfl
theorem EncodedWidth.repRelease : EncodedWidth.Statement .repRelease := rfl
theorem EncodedWidth.res01 : EncodedWidth.Statement .res01 := rfl
theorem EncodedWidth.res09 : EncodedWidth.Statement .res09 := rfl
theorem EncodedWidth.res19 : EncodedWidth.Statement .res19 := rfl
theorem EncodedWidth.resFourth (r : Byte) : EncodedWidth.Statement (.resFourth r) := rfl
theorem EncodedWidth.resFailBias (r : Byte) : EncodedWidth.Statement (.resFailBias r) := rfl
theorem EncodedWidth.resFailNoBias (r : Byte) : EncodedWidth.Statement (.resFailNoBias r) := rfl
theorem EncodedWidth.clHeadset (t : Triplet) : EncodedWidth.Statement (.clHeadset t) := rfl
theorem EncodedWidth.clHeadphone (t : Triplet) : EncodedWidth.Statement (.clHeadphone t) := rfl
theorem EncodedWidth.clLineOut (t : Triplet) : EncodedWidth.Statement (.clLineOut t) := rfl
theorem EncodedWidth.clNone (t : Triplet) : EncodedWidth.Statement (.clNone t) := rfl
theorem EncodedWidth.keyscan (k : Byte) : EncodedWidth.Statement (.keyscan k) := rfl
theorem EncodedWidth.btn0 (s0 s1 ks : Byte) : EncodedWidth.Statement (.btn0 s0 s1 ks) := rfl
theorem EncodedWidth.btn1 (s0 s1 ks : Byte) : EncodedWidth.Statement (.btn1 s0 s1 ks) := rfl
theorem EncodedWidth.btn2 (s0 s1 ks : Byte) : EncodedWidth.Statement (.btn2 s0 s1 ks) := rfl
theorem EncodedWidth.btnNone (s0 s1 ks : Byte) : EncodedWidth.Statement (.btnNone s0 s1 ks) := rfl

end Sys2Proof.Laws
end

