-- ==== Sys2Proof/Laws/Port.lean ====
section
/-! SUPPORT. One lemma per field that a port or power operation leaves alone, and what those operations
append to the trace. -/

namespace Sys2Proof.Machine

/-! ## portWrite -/

@[simp] theorem portWrite_cfg (a v : Byte) (s : State) : (portWrite a v s).cfg = s.cfg :=
  (portWrite_onlyPort a v s).cfg
@[simp] theorem portWrite_jack (a v : Byte) (s : State) : (portWrite a v s).jack = s.jack :=
  (portWrite_onlyPort a v s).jack
@[simp] theorem portWrite_retry (a v : Byte) (s : State) : (portWrite a v s).retry = s.retry :=
  (portWrite_onlyPort a v s).retry
@[simp] theorem portWrite_ignoreNext (a v : Byte) (s : State) : (portWrite a v s).ignoreNext = s.ignoreNext :=
  (portWrite_onlyPort a v s).ignoreNext
@[simp] theorem portWrite_snap (a v : Byte) (s : State) : (portWrite a v s).snap = s.snap :=
  (portWrite_onlyPort a v s).snap
@[simp] theorem portWrite_det (a v : Byte) (s : State) : (portWrite a v s).det = s.det :=
  (portWrite_onlyPort a v s).det
@[simp] theorem portWrite_slot (a v : Byte) (s : State) : (portWrite a v s).slot = s.slot :=
  (portWrite_onlyPort a v s).slot
@[simp] theorem portWrite_mode (a v : Byte) (s : State) : (portWrite a v s).mode = s.mode :=
  (portWrite_onlyPort a v s).mode
@[simp] theorem portWrite_cacheOnly (a v : Byte) (s : State) : (portWrite a v s).cacheOnly = s.cacheOnly :=
  (portWrite_onlyPort a v s).cacheOnly
@[simp] theorem portWrite_isr (a v : Byte) (s : State) : (portWrite a v s).isr = s.isr :=
  (portWrite_onlyPort a v s).isr
@[simp] theorem portWrite_wpc (a v : Byte) (s : State) : (portWrite a v s).wpc = s.wpc :=
  (portWrite_onlyPort a v s).wpc
@[simp] theorem portWrite_lpc (a v : Byte) (s : State) : (portWrite a v s).lpc = s.lpc :=
  (portWrite_onlyPort a v s).lpc
@[simp] theorem portWrite_loc (a v : Byte) (s : State) : (portWrite a v s).loc = s.loc :=
  (portWrite_onlyPort a v s).loc
@[simp] theorem portWrite_faults (a v : Byte) (s : State) : (portWrite a v s).faults = s.faults :=
  (portWrite_onlyPort a v s).faults
@[simp] theorem portWrite_order (a v : Byte) (s : State) : (portWrite a v s).order = s.order :=
  (portWrite_onlyPort a v s).order
@[simp] theorem portWrite_script (a v : Byte) (s : State) : (portWrite a v s).script = s.script :=
  (portWrite_onlyPort a v s).script
@[simp] theorem portWrite_latch (a v : Byte) (s : State) : (portWrite a v s).latch = s.latch :=
  (portWrite_onlyPort a v s).latch
@[simp] theorem portWrite_source (a v : Byte) (s : State) : (portWrite a v s).source = s.source :=
  (portWrite_onlyPort a v s).source

/-! ## portUpdate -/

@[simp] theorem portUpdate_cfg (a m v : Byte) (s : State) : (portUpdate a m v s).cfg = s.cfg :=
  (portUpdate_onlyPort a m v s).cfg
@[simp] theorem portUpdate_jack (a m v : Byte) (s : State) : (portUpdate a m v s).jack = s.jack :=
  (portUpdate_onlyPort a m v s).jack
@[simp] theorem portUpdate_retry (a m v : Byte) (s : State) : (portUpdate a m v s).retry = s.retry :=
  (portUpdate_onlyPort a m v s).retry
@[simp] theorem portUpdate_ignoreNext (a m v : Byte) (s : State) : (portUpdate a m v s).ignoreNext = s.ignoreNext :=
  (portUpdate_onlyPort a m v s).ignoreNext
@[simp] theorem portUpdate_snap (a m v : Byte) (s : State) : (portUpdate a m v s).snap = s.snap :=
  (portUpdate_onlyPort a m v s).snap
@[simp] theorem portUpdate_det (a m v : Byte) (s : State) : (portUpdate a m v s).det = s.det :=
  (portUpdate_onlyPort a m v s).det
@[simp] theorem portUpdate_slot (a m v : Byte) (s : State) : (portUpdate a m v s).slot = s.slot :=
  (portUpdate_onlyPort a m v s).slot
@[simp] theorem portUpdate_mode (a m v : Byte) (s : State) : (portUpdate a m v s).mode = s.mode :=
  (portUpdate_onlyPort a m v s).mode
@[simp] theorem portUpdate_cacheOnly (a m v : Byte) (s : State) : (portUpdate a m v s).cacheOnly = s.cacheOnly :=
  (portUpdate_onlyPort a m v s).cacheOnly
@[simp] theorem portUpdate_isr (a m v : Byte) (s : State) : (portUpdate a m v s).isr = s.isr :=
  (portUpdate_onlyPort a m v s).isr
@[simp] theorem portUpdate_wpc (a m v : Byte) (s : State) : (portUpdate a m v s).wpc = s.wpc :=
  (portUpdate_onlyPort a m v s).wpc
@[simp] theorem portUpdate_lpc (a m v : Byte) (s : State) : (portUpdate a m v s).lpc = s.lpc :=
  (portUpdate_onlyPort a m v s).lpc
@[simp] theorem portUpdate_loc (a m v : Byte) (s : State) : (portUpdate a m v s).loc = s.loc :=
  (portUpdate_onlyPort a m v s).loc
@[simp] theorem portUpdate_faults (a m v : Byte) (s : State) : (portUpdate a m v s).faults = s.faults :=
  (portUpdate_onlyPort a m v s).faults
@[simp] theorem portUpdate_order (a m v : Byte) (s : State) : (portUpdate a m v s).order = s.order :=
  (portUpdate_onlyPort a m v s).order
@[simp] theorem portUpdate_script (a m v : Byte) (s : State) : (portUpdate a m v s).script = s.script :=
  (portUpdate_onlyPort a m v s).script
@[simp] theorem portUpdate_latch (a m v : Byte) (s : State) : (portUpdate a m v s).latch = s.latch :=
  (portUpdate_onlyPort a m v s).latch
@[simp] theorem portUpdate_source (a m v : Byte) (s : State) : (portUpdate a m v s).source = s.source :=
  (portUpdate_onlyPort a m v s).source

/-! ## portIssue -/

@[simp] theorem portIssue_cfg (op : StoreOp) (s : State) : (portIssue op s).cfg = s.cfg :=
  (portIssue_onlyPort op s).cfg
@[simp] theorem portIssue_jack (op : StoreOp) (s : State) : (portIssue op s).jack = s.jack :=
  (portIssue_onlyPort op s).jack
@[simp] theorem portIssue_retry (op : StoreOp) (s : State) : (portIssue op s).retry = s.retry :=
  (portIssue_onlyPort op s).retry
@[simp] theorem portIssue_ignoreNext (op : StoreOp) (s : State) : (portIssue op s).ignoreNext = s.ignoreNext :=
  (portIssue_onlyPort op s).ignoreNext
@[simp] theorem portIssue_snap (op : StoreOp) (s : State) : (portIssue op s).snap = s.snap :=
  (portIssue_onlyPort op s).snap
@[simp] theorem portIssue_det (op : StoreOp) (s : State) : (portIssue op s).det = s.det :=
  (portIssue_onlyPort op s).det
@[simp] theorem portIssue_slot (op : StoreOp) (s : State) : (portIssue op s).slot = s.slot :=
  (portIssue_onlyPort op s).slot
@[simp] theorem portIssue_mode (op : StoreOp) (s : State) : (portIssue op s).mode = s.mode :=
  (portIssue_onlyPort op s).mode
@[simp] theorem portIssue_cacheOnly (op : StoreOp) (s : State) : (portIssue op s).cacheOnly = s.cacheOnly :=
  (portIssue_onlyPort op s).cacheOnly
@[simp] theorem portIssue_isr (op : StoreOp) (s : State) : (portIssue op s).isr = s.isr :=
  (portIssue_onlyPort op s).isr
@[simp] theorem portIssue_wpc (op : StoreOp) (s : State) : (portIssue op s).wpc = s.wpc :=
  (portIssue_onlyPort op s).wpc
@[simp] theorem portIssue_lpc (op : StoreOp) (s : State) : (portIssue op s).lpc = s.lpc :=
  (portIssue_onlyPort op s).lpc
@[simp] theorem portIssue_loc (op : StoreOp) (s : State) : (portIssue op s).loc = s.loc :=
  (portIssue_onlyPort op s).loc
@[simp] theorem portIssue_faults (op : StoreOp) (s : State) : (portIssue op s).faults = s.faults :=
  (portIssue_onlyPort op s).faults
@[simp] theorem portIssue_order (op : StoreOp) (s : State) : (portIssue op s).order = s.order :=
  (portIssue_onlyPort op s).order
@[simp] theorem portIssue_script (op : StoreOp) (s : State) : (portIssue op s).script = s.script :=
  (portIssue_onlyPort op s).script
@[simp] theorem portIssue_latch (op : StoreOp) (s : State) : (portIssue op s).latch = s.latch :=
  (portIssue_onlyPort op s).latch
@[simp] theorem portIssue_source (op : StoreOp) (s : State) : (portIssue op s).source = s.source :=
  (portIssue_onlyPort op s).source

/-! ## portResync -/

@[simp] theorem portResync_cfg (s : State) : (portResync s).cfg = s.cfg :=
  (portResync_onlyPort s).cfg
@[simp] theorem portResync_jack (s : State) : (portResync s).jack = s.jack :=
  (portResync_onlyPort s).jack
@[simp] theorem portResync_retry (s : State) : (portResync s).retry = s.retry :=
  (portResync_onlyPort s).retry
@[simp] theorem portResync_ignoreNext (s : State) : (portResync s).ignoreNext = s.ignoreNext :=
  (portResync_onlyPort s).ignoreNext
@[simp] theorem portResync_snap (s : State) : (portResync s).snap = s.snap :=
  (portResync_onlyPort s).snap
@[simp] theorem portResync_det (s : State) : (portResync s).det = s.det :=
  (portResync_onlyPort s).det
@[simp] theorem portResync_slot (s : State) : (portResync s).slot = s.slot :=
  (portResync_onlyPort s).slot
@[simp] theorem portResync_mode (s : State) : (portResync s).mode = s.mode :=
  (portResync_onlyPort s).mode
@[simp] theorem portResync_cacheOnly (s : State) : (portResync s).cacheOnly = s.cacheOnly :=
  (portResync_onlyPort s).cacheOnly
@[simp] theorem portResync_isr (s : State) : (portResync s).isr = s.isr :=
  (portResync_onlyPort s).isr
@[simp] theorem portResync_wpc (s : State) : (portResync s).wpc = s.wpc :=
  (portResync_onlyPort s).wpc
@[simp] theorem portResync_lpc (s : State) : (portResync s).lpc = s.lpc :=
  (portResync_onlyPort s).lpc
@[simp] theorem portResync_loc (s : State) : (portResync s).loc = s.loc :=
  (portResync_onlyPort s).loc
@[simp] theorem portResync_faults (s : State) : (portResync s).faults = s.faults :=
  (portResync_onlyPort s).faults
@[simp] theorem portResync_order (s : State) : (portResync s).order = s.order :=
  (portResync_onlyPort s).order
@[simp] theorem portResync_script (s : State) : (portResync s).script = s.script :=
  (portResync_onlyPort s).script
@[simp] theorem portResync_latch (s : State) : (portResync s).latch = s.latch :=
  (portResync_onlyPort s).latch
@[simp] theorem portResync_source (s : State) : (portResync s).source = s.source :=
  (portResync_onlyPort s).source

/-! ## powerCall -/

@[simp] theorem powerCall_cfg (c : PowerCall) (s : State) : (powerCall c s).cfg = s.cfg :=
  (powerCall_onlyPort c s).cfg
@[simp] theorem powerCall_jack (c : PowerCall) (s : State) : (powerCall c s).jack = s.jack :=
  (powerCall_onlyPort c s).jack
@[simp] theorem powerCall_retry (c : PowerCall) (s : State) : (powerCall c s).retry = s.retry :=
  (powerCall_onlyPort c s).retry
@[simp] theorem powerCall_ignoreNext (c : PowerCall) (s : State) : (powerCall c s).ignoreNext = s.ignoreNext :=
  (powerCall_onlyPort c s).ignoreNext
@[simp] theorem powerCall_snap (c : PowerCall) (s : State) : (powerCall c s).snap = s.snap :=
  (powerCall_onlyPort c s).snap
@[simp] theorem powerCall_det (c : PowerCall) (s : State) : (powerCall c s).det = s.det :=
  (powerCall_onlyPort c s).det
@[simp] theorem powerCall_slot (c : PowerCall) (s : State) : (powerCall c s).slot = s.slot :=
  (powerCall_onlyPort c s).slot
@[simp] theorem powerCall_mode (c : PowerCall) (s : State) : (powerCall c s).mode = s.mode :=
  (powerCall_onlyPort c s).mode
@[simp] theorem powerCall_cacheOnly (c : PowerCall) (s : State) : (powerCall c s).cacheOnly = s.cacheOnly :=
  (powerCall_onlyPort c s).cacheOnly
@[simp] theorem powerCall_isr (c : PowerCall) (s : State) : (powerCall c s).isr = s.isr :=
  (powerCall_onlyPort c s).isr
@[simp] theorem powerCall_wpc (c : PowerCall) (s : State) : (powerCall c s).wpc = s.wpc :=
  (powerCall_onlyPort c s).wpc
@[simp] theorem powerCall_lpc (c : PowerCall) (s : State) : (powerCall c s).lpc = s.lpc :=
  (powerCall_onlyPort c s).lpc
@[simp] theorem powerCall_loc (c : PowerCall) (s : State) : (powerCall c s).loc = s.loc :=
  (powerCall_onlyPort c s).loc
@[simp] theorem powerCall_faults (c : PowerCall) (s : State) : (powerCall c s).faults = s.faults :=
  (powerCall_onlyPort c s).faults
@[simp] theorem powerCall_order (c : PowerCall) (s : State) : (powerCall c s).order = s.order :=
  (powerCall_onlyPort c s).order
@[simp] theorem powerCall_script (c : PowerCall) (s : State) : (powerCall c s).script = s.script :=
  (powerCall_onlyPort c s).script
@[simp] theorem powerCall_latch (c : PowerCall) (s : State) : (powerCall c s).latch = s.latch :=
  (powerCall_onlyPort c s).latch
@[simp] theorem powerCall_source (c : PowerCall) (s : State) : (powerCall c s).source = s.source :=
  (powerCall_onlyPort c s).source

/-! ## What is appended to the trace -/

/-- `t`'s trace is `s`'s with entries appended, none of them a report. -/
def AppendsNoReport (s t : State) : Prop :=
  ∃ l, t.trace = s.trace ++ l ∧ ∀ r, TraceEvent.rep r ∉ l

theorem portStore_appends (op : PortOp) (a m v : Byte) (s : State) :
    AppendsNoReport s (portStore op a m v s) := by
  rcases portStore_spec op a m v s with ⟨_, h⟩ | ⟨_, ok, _, _, _, _, h⟩ <;> rw [h]
  · exact ⟨_, rfl, by simp⟩
  · exact ⟨_, rfl, by cases ok <;> simp⟩

theorem portWrite_appends (a v : Byte) (s : State) : AppendsNoReport s (portWrite a v s) :=
  portStore_appends _ _ _ _ _

theorem portUpdate_appends (a m v : Byte) (s : State) : AppendsNoReport s (portUpdate a m v s) :=
  portStore_appends _ _ _ _ _

theorem portIssue_appends (op : StoreOp) (s : State) : AppendsNoReport s (portIssue op s) := by
  cases op <;> exact portStore_appends _ _ _ _ _

theorem portRead_appends {a : Byte} {s t : State} {ok : Bool} {v : Byte}
    (h : portRead a s = some (ok, v, t)) : AppendsNoReport s t := by
  rcases portRead_spec a s with ⟨_, _, h1⟩ | ⟨_, _, _, h1⟩ | ⟨_, _, _, _, _, h1⟩ | ⟨_, _, ok', _, _, _, _, h1⟩ <;>
    rw [h1] at h <;> cases h
  · exact ⟨_, rfl, by simp⟩
  · exact ⟨_, rfl, by simp⟩
  · exact ⟨_, rfl, by cases ok <;> simp⟩

theorem portResync_appends (s : State) : AppendsNoReport s (portResync s) := by
  obtain ⟨ok, _, _, _, h⟩ := portResync_spec s
  rw [h]
  exact ⟨_, rfl, by cases ok <;> simp⟩

theorem powerCall_appends (c : PowerCall) (s : State) : AppendsNoReport s (powerCall c s) := by
  obtain ⟨ok, _, _, h⟩ := powerCall_spec c s
  rw [h]
  exact ⟨_, rfl, by cases ok <;> simp⟩

end Sys2Proof.Machine
end

