-- ==== Sys2Proof/Laws/Step.lean ====
section
/-! SUPPORT. What one step of the machine can do, said once: statements about every step go through
`step_next` and need no unfolding of `step`. -/

namespace Sys2Proof.Machine

/-- `t` is `s` but for the model's own holders of answers, free values and input. -/
def OnlyModel (s t : State) : Prop :=
  t = { s with env := t.env, draws := t.draws, script := t.script, latch := t.latch }

theorem OnlyModel.refl (s : State) : OnlyModel s s := rfl

section
variable {s t : State} (h : OnlyModel s t)
include h
theorem OnlyModel.cfg : t.cfg = s.cfg := by rw [h]
theorem OnlyModel.jack : t.jack = s.jack := by rw [h]
theorem OnlyModel.retry : t.retry = s.retry := by rw [h]
theorem OnlyModel.ignoreNext : t.ignoreNext = s.ignoreNext := by rw [h]
theorem OnlyModel.snap : t.snap = s.snap := by rw [h]
theorem OnlyModel.det : t.det = s.det := by rw [h]
theorem OnlyModel.slot : t.slot = s.slot := by rw [h]
theorem OnlyModel.mode : t.mode = s.mode := by rw [h]
theorem OnlyModel.cacheOnly : t.cacheOnly = s.cacheOnly := by rw [h]
theorem OnlyModel.isr : t.isr = s.isr := by rw [h]
theorem OnlyModel.wpc : t.wpc = s.wpc := by rw [h]
theorem OnlyModel.lpc : t.lpc = s.lpc := by rw [h]
theorem OnlyModel.loc : t.loc = s.loc := by rw [h]
theorem OnlyModel.hw : t.hw = s.hw := by rw [h]
theorem OnlyModel.shadow : t.shadow = s.shadow := by rw [h]
theorem OnlyModel.faults : t.faults = s.faults := by rw [h]
theorem OnlyModel.trace : t.trace = s.trace := by rw [h]
theorem OnlyModel.source : t.source = s.source := by rw [h]
theorem OnlyModel.order : t.order = s.order := by rw [h]
end

theorem afterChoice_onlyModel (s : State) : OnlyModel s (afterChoice s) := by
  unfold afterChoice
  cases s.order <;> rfl

theorem afterChoice_script (s : State) : (afterChoice s).script = s.script := by
  unfold afterChoice
  cases s.order <;> rfl

theorem afterChoice_order (s : State) : (afterChoice s).order = s.order := by rw [afterChoice_onlyModel s]

theorem withScript_onlyModel (s : State) (ls : List Line) :
    OnlyModel s { afterChoice s with script := ls } := by
  unfold afterChoice
  cases s.order <;> rfl

/-- Every agent's move is listed, and only a script line is no agent's. -/
theorem mem_allMoves {m : Move} : m ∈ allMoves ↔ m ≠ .line := by
  cases m with
  | event e => cases e <;> decide
  | _ => decide

/-- The enabled moves are those `moveEnabled` holds of. -/
theorem mem_enabledMoves {s : State} {m : Move} : m ∈ enabledMoves s ↔ moveEnabled s m = true := by
  simp only [enabledMoves, List.mem_filter, mem_allMoves, and_iff_right_iff_imp]
  rintro h rfl
  cases h

/-- A run that goes on is not refused. -/
theorem unlessRefused_next {s t : State} {r : Result} (h : unlessRefused s r = .next t) :
    runRefusal s = none ∧ r = .next t := by
  unfold unlessRefused at h
  cases hr : runRefusal s with
  | none => rw [hr] at h; exact ⟨rfl, h⟩
  | some e => rw [hr] at h; cases h

/-- Where the run is not refused the outcome is the step's own. Rewrite with this one: simp unfolds
`runRefusal` and does not come back. -/
theorem unlessRefused_eq {s : State} {r : Result} (h : runRefusal s = none) : unlessRefused s r = r := by
  unfold unlessRefused
  rw [h]

/-- An item that decodes is run. -/
theorem runItem_eq {s : State} {it : Item} {i : Instr} (h : decodeItem s.cfg it = .ok i) :
    runItem it s = exec i s := by
  unfold runItem
  rw [h]

/-- An event byte decodes to its event's row and to nothing else. -/
theorem decodeItem_event {c : Cfg} {code : Byte} {i : Instr} (h : decodeItem c ⟨.event, [code]⟩ = .ok i) :
    ∃ e, eventOfCode code = some e ∧ i = Event.instr e := by
  simp only [decodeItem, decode, decodeEvent] at h
  cases he : eventOfCode code with
  | none => rw [he] at h; cases h
  | some e => rw [he] at h; cases h; exact ⟨e, rfl, rfl⟩

/-- A script line that goes on is an event, a named step, or touches only the model's own holders. -/
theorem runLine_next {l : Line} {u t : State} (h : runLine l u = .next t) :
    (∃ e, exec (Event.instr e) u = .next t) ∨ isrStep u = .next t ∨ workerStep u = .next t ∨ OnlyModel u t := by
  cases l with
  | event code =>
    simp only [runLine, runItem] at h
    cases hd : decodeItem u.cfg ⟨.event, [code]⟩ with
    | error e => rw [hd] at h; cases h
    | ok i =>
      rw [hd] at h
      obtain ⟨e, _, rfl⟩ := decodeItem_event hd
      exact .inl ⟨e, h⟩
  | stepIsr => exact .inr (.inl h)
  | stepWorker => exact .inr (.inr (.inl h))
  | _ => cases h; exact .inr (.inr (.inr rfl))

/-- Everything a step of the machine can do: it runs an offered item, an event, or one step of an agent,
on the state `u` in which the input is used up; or nothing of the block moves. -/
theorem step_next {s t : State} (h : step s = .next t) :
    runRefusal s = none ∧ ∃ u, OnlyModel s u ∧
      ((s.latch ≠ none ∧ ∃ i, exec i u = .next t) ∨ (∃ e, exec (Event.instr e) u = .next t) ∨
        hostStep u = .next t ∨ isrStep u = .next t ∨ workerStep u = .next t ∨ OnlyModel u t) := by
  unfold step at h
  cases hl : s.latch with
  | some it =>
    rw [hl] at h
    obtain ⟨hr, h⟩ := unlessRefused_next h
    refine ⟨hr, { s with latch := none }, rfl, .inl ⟨by simp, ?_⟩⟩
    unfold runItem at h
    split at h
    · exact ⟨_, h⟩
    · cases h
  | none =>
    rw [hl] at h
    obtain ⟨hr, h⟩ := unlessRefused_next h
    clear hl
    have ho := afterChoice_onlyModel s
    cases hm : nextMove s with
    | host => rw [hm] at h; exact ⟨hr, _, ho, .inr (.inr (.inl h))⟩
    | isr => rw [hm] at h; exact ⟨hr, _, ho, .inr (.inr (.inr (.inl h)))⟩
    | worker => rw [hm] at h; exact ⟨hr, _, ho, .inr (.inr (.inr (.inr (.inl h))))⟩
    | event e => rw [hm] at h; exact ⟨hr, _, ho, .inr (.inl ⟨e, h⟩)⟩
    | idle => rw [hm] at h; cases h; exact ⟨hr, _, ho, .inr (.inr (.inr (.inr (.inr rfl))))⟩
    | line =>
      rw [hm] at h
      simp only [perform, lineStep] at h
      cases hs : (afterChoice s).script with
      | nil => rw [hs] at h; cases h; exact ⟨hr, _, ho, .inr (.inr (.inr (.inr (.inr rfl))))⟩
      | cons l rest =>
        rw [hs] at h
        refine ⟨hr, _, withScript_onlyModel s rest, ?_⟩
        rcases runLine_next h with h1 | h1 | h1 | h1
        · exact .inr (.inl h1)
        · exact .inr (.inr (.inr (.inl h1)))
        · exact .inr (.inr (.inr (.inr (.inl h1))))
        · exact .inr (.inr (.inr (.inr (.inr h1))))

end Sys2Proof.Machine
end

