-- ==== Sys2Proof/Tests/Slice0.lean ====
section
/-! SUPPORT. Tests, with expected results from 95_test_vectors.md or worked out from the rule named, the
smoke test of WellFormed, and a witness for the hypotheses of every statement that has some. -/

namespace Sys2Proof.Tests

open Sys2Proof.Machine

/-! ## Helpers -/

/-- The outcome is a next state of which `p` holds. -/
def nextOf (r : Host.Outcome State Fault Refusal) (p : State → Bool) : Bool :=
  match r with
  | .next t => p t
  | .fault _ => false
  | .refused _ => false

theorem nextOf_exists {r : Host.Outcome State Fault Refusal} {p : State → Bool} (h : nextOf r p = true) :
    ∃ t, r = .next t ∧ p t = true := by
  cases r with
  | next t => exact ⟨t, rfl, h⟩
  | fault e => cases h
  | refused e => cases h

/-- The outcome is this refusal. -/
def refusedBy (r : Host.Outcome State Fault Refusal) (e : Refusal) : Bool :=
  match r with
  | .refused e' => decide (e' = e)
  | .next _ => false
  | .fault _ => false

/-- The item decodes to this instruction. -/
def decodes (c : Cfg) (it : Item) (i : Instr) : Bool :=
  match decodeItem c it with
  | .ok j => decide (j = i)
  | .error _ => false

theorem decodes_eq {c : Cfg} {it : Item} {i : Instr} (h : decodes c it i = true) : decodeItem c it = .ok i := by
  unfold decodes at h
  cases hd : decodeItem c it with
  | ok j => rw [hd] at h; rw [of_decide_eq_true h]
  | error e => rw [hd] at h; cases h

/-- The item is rejected for this reason. -/
def rejects (c : Cfg) (it : Item) (e : DecodeError) : Bool :=
  match decodeItem c it with
  | .ok _ => false
  | .error e' => decide (e' = e)

/-- An attached block under EX, in a script, its masks open. -/
def active : State :=
  { State.reset with
    mode := .active
    jack := some .unknown
    env := ⟨true, [], [], []⟩
    order := .eager
    hw := RegFile.setBits State.reset.hw 0x04 0xFF 0x80 }

/-- The same with one queued answer: the next read of `a` gives `v`. -/
def answered (a v : Byte) (s : State) : State := { s with env := ⟨true, [⟨a, true, some v⟩], [], []⟩ }

/-- The same at a label of a worker run, with every local and register it may read written. -/
def running (l : Label) (s : State) : State :=
  { s with
    wpc := l
    slot := .running
    snap := some 0x84
    retry := some 3
    det := some entry09
    loc :=
      { trip := some zeroTriplet, aborted := some false, timedOut := some false, res := some 0x09
        s0 := some 0x05, s1 := some 0x04, ks := some 0x8A, newState := some .headset
        nextState := some .headset, mapped := none, button := none } }

/-- EX with the fourth code that 95_test_vectors.md names beside Q-T12. -/
def cfgFourth : Cfg := { Cfg.ex with fourthCode := some (0x21, ⟨0x0A, ⟨0x00, 0x40, 0x00⟩, true⟩) }

/-! ## WellFormed: an ill-formed term for each check is refused -/

theorem test_illFormed_update : Instr.wellFormed Cfg.ex (.update 0x1D 0x80 0x81) = false := by decide
theorem test_illFormed_resFourth_absent : Instr.wellFormed Cfg.ex (.resFourth 0x21) = false := by decide
theorem test_illFormed_resFourth_known :
    Instr.wellFormed { Cfg.ex with fourthCode := some (0x01, entry01) } (.resFourth 0x01) = false := by decide
theorem test_illFormed_resFailBias_known : Instr.wellFormed Cfg.ex (.resFailBias 0x09) = false := by decide
theorem test_illFormed_resFailBias_bit : Instr.wellFormed Cfg.ex (.resFailBias 0x11) = false := by decide
theorem test_illFormed_resFailNoBias_bit : Instr.wellFormed Cfg.ex (.resFailNoBias 0x2B) = false := by decide
theorem test_illFormed_resFailNoBias_fourth :
    Instr.wellFormed cfgFourth (.resFailNoBias 0x21) = false := by decide
theorem test_illFormed_clHeadset : Instr.wellFormed Cfg.ex (.clHeadset ⟨0x08, 0x00, 0x00⟩) = false := by decide
theorem test_illFormed_clHeadphone : Instr.wellFormed Cfg.ex (.clHeadphone ⟨0x8C, 0x30, 0x02⟩) = false := by decide
theorem test_illFormed_clLineOut : Instr.wellFormed Cfg.ex (.clLineOut ⟨0x00, 0xE0, 0x00⟩) = false := by decide
theorem test_illFormed_clNone : Instr.wellFormed Cfg.ex (.clNone ⟨0x00, 0x40, 0x00⟩) = false := by decide
theorem test_illFormed_btn0 : Instr.wellFormed Cfg.ex (.btn0 0x01 0x04 0x8A) = false := by decide
theorem test_illFormed_btn1 : Instr.wellFormed Cfg.ex (.btn1 0x01 0x00 0x8A) = false := by decide
theorem test_illFormed_btn2 : Instr.wellFormed Cfg.ex (.btn2 0x01 0x04 0x8A) = false := by decide
theorem test_illFormed_btnNone : Instr.wellFormed Cfg.ex (.btnNone 0x03 0x00 0x8A) = false := by decide

/-! ## Words written out from the encodings -/

-- EVENT codes: 30_encoding.md R71.
theorem test_word_events :
    decodeTableWord 8 0b00000001 = some .evProbe ∧ decodeTableWord 8 0b00000010 = some .evIrq ∧
    decodeTableWord 8 0b00000011 = some .evFire ∧ decodeTableWord 8 0b00000100 = some .evSuspend ∧
    decodeTableWord 8 0b00000101 = some .evResume ∧ decodeTableWord 8 0b00000110 = some .evRemove := by decide

-- R72: op[31:28] reserved[27:25] b[24] addr[23:16] mask[15:8] value[7:0]; words of 95 section 3.1 and 2.
theorem test_word_read : decodeTableWord 32 0b0000_000_0_00000000_00000000_10000100 = some (.read 0x00) := by decide
theorem test_word_write :
    decodeTableWord 32 0b0001_000_0_00000101_00000000_11000100 = some (.write 0x05 0xC4) := by decide
theorem test_word_update :
    decodeTableWord 32 0b0010_000_0_00011011_00010000_00000000 = some (.update 0x1B 0x10 0x00) := by decide
theorem test_word_cacheOnly :
    decodeTableWord 32 0b0011_000_1_00000000_00000000_00000000 = some (.cacheOnly true) ∧
    decodeTableWord 32 0b0011_000_0_00000000_00000000_00000000 = some (.cacheOnly false) := by decide
theorem test_word_resync :
    decodeTableWord 32 0b0100_000_0_00000000_00000000_00000000 = some .resync := by decide

-- R73: kind[15:8] value[7:0].
theorem test_word_repJack :
    decodeTableWord 16 0b00000001_00000000 = some (.repJack .none) ∧
    decodeTableWord 16 0b00000001_00000001 = some (.repJack .unknown) ∧
    decodeTableWord 16 0b00000001_00000010 = some (.repJack .headphone) ∧
    decodeTableWord 16 0b00000001_00000011 = some (.repJack .headset) ∧
    decodeTableWord 16 0b00000001_00000100 = some (.repJack .lineOut) := by decide
theorem test_word_repButton :
    decodeTableWord 16 0b00000010_00000000 = some (.repButton .button0) ∧
    decodeTableWord 16 0b00000010_00000001 = some (.repButton .button1) ∧
    decodeTableWord 16 0b00000010_00000010 = some (.repButton .button2) := by decide
theorem test_word_repRelease : decodeTableWord 16 0b00000011_00000000 = some .repRelease := by decide

-- RESULT bytes: vectors Q-T1, Q-T2, Q-T3, Q-T8, Q-T10, and the fourth code beside Q-T12.
theorem test_word_results :
    decodes Cfg.ex ⟨.result, [0b00000001]⟩ .res01 ∧
    decodes Cfg.ex ⟨.result, [0b00001001]⟩ .res09 ∧
    decodes Cfg.ex ⟨.result, [0b00011001]⟩ .res19 ∧
    decodes cfgFourth ⟨.result, [0b00100001]⟩ (.resFourth 0x21) ∧
    decodes Cfg.ex ⟨.result, [0b00101011]⟩ (.resFailBias 0x2B) ∧
    decodes Cfg.ex ⟨.result, [0b11110111]⟩ (.resFailNoBias 0xF7) := by decide

-- CLASSIFY words t0<<16 | t1<<8 | t2: vectors J-C2, J-C1, J-C6, J-C5; bytes lowest first.
theorem test_word_classify :
    decodes Cfg.ex ⟨.classify, [0b00000010, 0b00110000, 0b10001100]⟩ (.clHeadset ⟨0x8C, 0x30, 0x02⟩) ∧
    decodes Cfg.ex ⟨.classify, [0b00000011, 0b00110000, 0b10000100]⟩ (.clHeadphone ⟨0x84, 0x30, 0x03⟩) ∧
    decodes Cfg.ex ⟨.classify, [0b00000000, 0b01000000, 0b00000000]⟩ (.clLineOut ⟨0x00, 0x40, 0x00⟩) ∧
    decodes Cfg.ex ⟨.classify, [0b00000000, 0b00000000, 0b00001000]⟩ (.clNone ⟨0x08, 0x00, 0x00⟩) := by
  decide

-- KEYSCAN: press[7] range[6] data[5:0] under EX (R77).
theorem test_word_keyscan : decodes Cfg.ex ⟨.keyscan, [0b1_0_001010]⟩ (.keyscan 0x8A) := by decide

-- BUTTON rows (R202): (0x03, 0x00) mcsw; (0x01, 0x04) with mapped 74, 96 and no key2; bytes ks, s1, s0.
theorem test_word_buttons :
    decodes Cfg.ex ⟨.button, [0b10001010, 0b00000000, 0b00000011]⟩ (.btn0 0x03 0x00 0x8A) ∧
    decodes Cfg.ex ⟨.button, [0b10001010, 0b00000100, 0b00000001]⟩ (.btn1 0x01 0x04 0x8A) ∧
    decodes Cfg.ex ⟨.button, [0b10100000, 0b00000100, 0b00000001]⟩ (.btn2 0x01 0x04 0xA0) ∧
    decodes Cfg.ex ⟨.button, [0b10001010, 0b00000000, 0b00000001]⟩ (.btnNone 0x01 0x00 0x8A) := by decide

-- The words of section 2 of 95_test_vectors.md, encoded.
theorem test_encode_words :
    wordOfBytes (encode (.write 0x1E 0x01)).bytes = 0x101E0001 ∧
    wordOfBytes (encode (.update 0x1D 0x80 0x80)).bytes = 0x201D8080 ∧
    wordOfBytes (encode (.cacheOnly true)).bytes = 0x31000000 ∧
    wordOfBytes (encode .resync).bytes = 0x40000000 ∧
    wordOfBytes (encode (.repJack .headset)).bytes = 0x0103 ∧
    wordOfBytes (encode (.repButton .button2)).bytes = 0x0202 ∧
    wordOfBytes (encode .repRelease).bytes = 0x0300 := by decide

-- Rejections by name (R81, R70).
theorem test_rejects :
    rejects Cfg.ex ⟨.event, [0x07]⟩ (.reservedEvent 0x07) ∧
    rejects Cfg.ex ⟨.port, [0, 0, 0, 0x50]⟩ .portOp ∧
    rejects Cfg.ex ⟨.port, [0, 0, 0, 0x12]⟩ .portReserved ∧
    rejects Cfg.ex ⟨.port, [0, 1, 4, 0x10]⟩ .portUnusedField ∧
    rejects Cfg.ex ⟨.report, [0, 4]⟩ .reportKind ∧
    rejects Cfg.ex ⟨.report, [5, 1]⟩ .reportValue ∧
    rejects Cfg.ex ⟨.port, [0, 0, 0]⟩ .tooShort ∧
    rejects Cfg.ex ⟨.event, [1, 1]⟩ .trailing := by decide

/-! ## One step of each family -/

-- I-R1: status0 reads 0x84 with the flag clear: the snapshot is stored, the handler goes on.
theorem test_isr_read :
    nextOf (isrStep { answered 0x00 0x84 active with isr := .read })
      (fun t => decide (t.snap = some 0x84 ∧ t.isr = .mask1 ∧ t.ignoreNext = false)) = true := by decide

-- I-R2: the same with the flag set: swallowed, no mask write, no schedule.
theorem test_isr_suppressed :
    nextOf (isrStep { answered 0x00 0x84 active with isr := .read, ignoreNext := true })
      (fun t => decide (t.isr = .off ∧ t.slot = .idle ∧ t.ignoreNext = false ∧
        t.trace = [.port (.read 0x00 0x84) true (some .bus), .log .suppressedSpurious])) = true := by decide

-- R240: the codes of the records, first and last.
theorem test_logCode : logCode (.ioError 0x04) = 0x01 ∧ logCode (.detectQuality 0x03) = 0x09 := by decide

-- W-2: a request while a task is pending is dropped and the first delay stands.
theorem test_schedule_dropped :
    (schedule 10 { active with slot := .pending 250 }).slot = .pending 250 ∧
    (schedule 10 { active with slot := .pending 250 }).trace = [.sched 10 false] := by decide

-- W-6: RunningPending does not fire.
theorem test_fire_waits :
    nextOf (exec .evFire { active with slot := .runningPending 10 })
      (fun t => decide (t.slot = .runningPending 10 ∧ t.wpc = .wIdle)) = true := by decide

-- W-8: a queued run becomes pending at the end of the run.
theorem test_worker_end :
    nextOf (workerStep { running .wEnd active with slot := .runningPending 10 })
      (fun t => decide (t.slot = .pending 10 ∧ t.wpc = .wIdle ∧ t.det = none ∧ t.loc = Locals.unwritten)) = true := by
  decide

-- J-R1, J-R3: the first classification from Unknown reports, a repeated one does not.
theorem test_report_idempotent :
    (reportState .unknown .none active).trace = [.rep (.jack .none)] ∧
    (reportState .headphone .headphone active).trace = [] := by decide

-- J-C5, J-C7, J-C8: mic alone is not Headset, headphone wins over line, byte 2 is ignored.
theorem test_classify :
    classify Cfg.ex ⟨0x08, 0x00, 0x00⟩ = .none ∧ classify Cfg.ex ⟨0x00, 0xE0, 0x00⟩ = .headphone ∧
    classify Cfg.ex ⟨0x08, 0x60, 0xFF⟩ = .headset := by decide

-- J-E1 and J-E3: the removal test uses the snapshot.
theorem test_event_test :
    nextOf (workerStep { running .eTest active with snap := some 0x80 }) (fun t => decide (t.wpc = .eMuteL)) = true ∧
    nextOf (workerStep { running .eTest active with snap := some 0x04 }) (fun t => decide (t.wpc = .eReadS1)) = true := by
  decide

-- J-E7: no snapshot: the fault is recorded and the worker stays.
theorem test_event_unwritten :
    nextOf (workerStep { running .eTest active with snap := none })
      (fun t => decide (t.faults = [.unwrittenState .snap] ∧ t.wpc = .eTest)) = true := by decide

-- J-M3: with a present state the rearm writes 0x83 first.
theorem test_rearm :
    nextOf (workerStep { running .rMask1 active with jack := some .headphone })
      (fun t => decide (t.trace = [.port (.write 0x04 0x83) true (some .bus)] ∧ t.wpc = .rMask2 ∧
        RegFile.byte t.hw 0x04 = some 0x83)) = true := by decide

-- Q-A4, last attempt: the budget reaches 0 and the latched result is used.
theorem test_retry_exhausted :
    nextOf (workerStep
        { running (.dRetry 3) active with
          retry := some 1, loc := { (running (.dRetry 3) active).loc with timedOut := some true } })
      (fun t => decide (t.retry = some 0 ∧ t.wpc = .dForce ∧ t.trace = [.log .detectExhausted])) = true := by decide

-- S5: the mapped values of the key decoder.
theorem test_adcMap : (adcMap Cfg.ex 0x0A).toNat = 74 ∧ (adcMap Cfg.ex 0x4A).toNat = 10 := by decide

-- R203's example: 0x8A with (0x03, 0x00) reports Button0, 0x0A reports a release.
theorem test_key_decode :
    (keyDecode 0x03 0x00 0x8A active).trace = [.rep (.button .button0)] ∧
    (keyDecode 0x03 0x00 0x0A active).trace = [.rep .release] := by decide

-- R54: an update of unknown bits makes known only the bits under the mask.
theorem test_update_bits :
    nextOf (exec (.update 0x1D 0x80 0x80) active)
      (fun t => decide (RegFile.bit t.hw 0x1D 7 = some true ∧ RegFile.bit t.hw 0x1D 0 = none ∧
        RegFile.byte t.shadow 0x1D = none)) = true := by decide

-- R53: in cache-only mode a write reaches the cache only.
theorem test_write_cached :
    nextOf (exec (.write 0x1A 0x12) { active with cacheOnly := true })
      (fun t => decide (RegFile.byte t.shadow 0x1A = some 0x12 ∧ RegFile.byte t.hw 0x1A = none)) = true := by decide

-- R58: the resync takes the shadow to the codec.
theorem test_resync :
    nextOf (exec .resync { active with shadow := RegFile.setBits RegFile.unknown 0x1A 0xFF 0x12 })
      (fun t => decide (RegFile.byte t.hw 0x1A = some 0x12 ∧ t.trace = [.port .resync true none])) = true := by decide

-- R52: a non-volatile register with a known shadow is answered by the cache.
theorem test_read_cached :
    nextOf (exec (.read 0x1A) { active with shadow := RegFile.setBits RegFile.unknown 0x1A 0xFF 0x12 })
      (fun t => decide (t.trace = [.port (.read 0x1A 0x12) true (some .cached)])) = true := by decide

-- R220 to R223: the last step of an attach.
theorem test_attach_init :
    nextOf (hostStep { State.reset with lpc := .aInit })
      (fun t => decide (t.mode = .active ∧ t.jack = some .unknown ∧ t.slot = .pending 250 ∧
        t.trace = [.sched 250 true])) = true := by decide

-- R222: an ID byte that does not match ends the attach.
theorem test_attach_mismatch :
    nextOf (hostStep { answered 0x0B 0x00 State.reset with lpc := .aId })
      (fun t => decide (t.mode = .attachFailed ∧ t.lpc = .lIdle)) = true := by decide

-- R81, R259: a script with a reserved event code is refused before it runs; so is a bad configuration.
theorem test_refused :
    refusedBy (step { active with script := [.event 0x02, .event 0x07] }) (.reservedEvent 0x07) = true ∧
    refusedBy (step { active with cfg := { Cfg.ex with regIrqMask2 := 0x04 } }) .badConfig = true := by decide

-- R63, R165: a volatile register counts only in the selected TEST_START list; R77: the press bit of a keyscan
-- byte lies in neither the data field nor the range bit, that of a status byte anywhere.
theorem test_cfgOk :
    cfgOk { Cfg.ex with testStartV1 := [.write 0x10 0x01] } = true ∧
    cfgOk { Cfg.ex with testStartV1 := [.write 0x10 0x01], testVariant := .v1 } = false ∧
    cfgOk { Cfg.ex with pressField := ⟨.keyscan, 0x40⟩ } = false ∧
    cfgOk { Cfg.ex with pressField := ⟨.keyscan, 0x20⟩ } = false ∧
    cfgOk { Cfg.ex with pressField := ⟨.keyscan, 0x40⟩, ksRangeMask := 0x80 } = true ∧
    cfgOk { Cfg.ex with pressField := ⟨.status0, 0x20⟩ } = true := by decide

-- An item's row runs in the next step (R78 row 2).
theorem test_step_item :
    nextOf (step (State.reset.withFetchWord 8 0x09)) (fun t => decide (t.det = some entry09 ∧ t.latch = none)) = true := by
  decide

-- The rows that no vector above runs.
theorem test_rows_run :
    nextOf (exec (.clLineOut ⟨0x00, 0x40, 0x00⟩) active) (fun t => decide (t.loc.newState = some .lineOut)) = true ∧
    nextOf (exec (.keyscan 0x0A) active) (fun t => decide (t.loc.mapped = some 74)) = true ∧
    nextOf (exec (.btnNone 0x01 0x00 0x8A) active)
      (fun t => decide (t.trace = [.log (.unrecognizedKey 0x01 0x00 0x8A)])) = true ∧
    nextOf (exec (.repJack .headset) active) (fun t => decide (t.trace = [.rep (.jack .headset)])) = true ∧
    nextOf (exec (.resFailBias 0x2B) active) (fun t => decide (t.det = some entryFailBias)) = true := by decide

-- R256: a turn of one instance leaves the other as it was, and a system starts with two environments.
theorem test_instances :
    (System.turn 0 ⟨[{ active with lpc := .sCancel }, active], 0⟩).instances[1]? = some active ∧
    (System.reset [Cfg.ex, Cfg.ex]).instances.map State.source = [0, 1] := by decide

/-! ## Witnesses: a state and operands that meet the hypotheses of each statement -/

-- DecodeEncode and DecodedIsWellFormed: every row has well-formed operands.
theorem test_witness_wellFormed :
    [Instr.evProbe, .evIrq, .evFire, .evSuspend, .evResume, .evRemove, .read 0x00, .write 0xFF 0xFF,
      .update 0x1D 0x80 0x80, .cacheOnly true, .resync, .repJack .none, .repButton .button2, .repRelease, .res01,
      .res09, .res19, .resFourth 0x21, .resFailBias 0xFF, .resFailNoBias 0x00].all (Instr.wellFormed cfgFourth) = true ∧
    [Instr.clHeadset ⟨0x8C, 0x30, 0x02⟩, .clHeadphone ⟨0x84, 0x30, 0x03⟩, .clLineOut ⟨0x00, 0x40, 0x00⟩,
      .clNone ⟨0, 0, 0⟩, .keyscan 0xFF, .btn0 0x03 0x00 0x8A, .btn1 0x01 0x04 0x8A, .btn2 0x01 0x04 0xA0,
      .btnNone 0x01 0x00 0x8A].all (Instr.wellFormed Cfg.ex) = true := by decide

-- ReservedValuesRejected: each clause at its boundary values.
theorem test_witness_reserved :
    ((0x00 : Byte) = 0 ∧ 7 ≤ (0x07 : Byte).toNat ∧ 7 ≤ (0xFF : Byte).toNat) ∧
    (anyBit 0x02 0x0E = true ∧ anyBit 0x08 0x0E = true ∧ anyBit 0xFE 0x0E = true) ∧
    (anyBit 0x50 0x0E = false ∧ 5 ≤ (0x50 : Byte).toNat / 16 ∧ anyBit 0xF1 0x0E = false ∧ 5 ≤ (0xF1 : Byte).toNat / 16) ∧
    (4 ≤ (0x04 : Byte).toNat ∧ 4 ≤ (0xFF : Byte).toNat) ∧ (5 ≤ (0x05 : Byte).toNat ∧ 5 ≤ (0xFF : Byte).toNat) ∧
    (3 ≤ (0x03 : Byte).toNat ∧ 3 ≤ (0xFF : Byte).toNat) ∧ ((0x01 : Byte) ≠ 0 ∧ (0xFF : Byte) ≠ 0) := by decide

-- StepRunsDecoded: an offered item, a placed word, and an event line in the eager order.
theorem test_witness_stepItem :
    (offer ⟨.keyscan, [0x0A]⟩ active).latch = some ⟨.keyscan, [0x0A]⟩ ∧
    runRefusal (offer ⟨.keyscan, [0x0A]⟩ active) = none ∧ decodeItem active.cfg ⟨.keyscan, [0x0A]⟩ = .ok (.keyscan 0x0A) ∧
    runRefusal active = none ∧ decodeItem active.cfg (tableItem 32 0x10040083) = .ok (.write 0x04 0x83) :=
  ⟨rfl, by decide, decodes_eq (by decide), by decide, decodes_eq (by decide)⟩
theorem test_witness_stepEvent :
    (loadScript [.event 0x02] active).latch = none ∧ runRefusal (loadScript [.event 0x02] active) = none ∧
    (loadScript [.event 0x02] active).order = .eager ∧ active.lpc = .lIdle ∧ active.isr = .off ∧ active.wpc = .wIdle ∧
    (loadScript [.event 0x02] active).script = .event 0x02 :: [] ∧ eventOfCode 0x02 = some .irq := by decide

-- StepRunsOneAgent: the state at reset, where EV_PROBE is a pick, and a script's orders.
theorem test_witness_agents :
    State.reset.latch = none ∧ runRefusal State.reset = none ∧ State.reset.order = .free ∧
    moveEnabled State.reset (.event .probe) = true ∧ pickMove State.reset 1 = .event .probe ∧
    active.order = .eager ∧ nextMove active = .line ∧ nextMove { active with isr := .mask1 } = .isr ∧
    nextMove { active with isr := .mask1, order := .named } = .line ∧ hostEnabled active = false ∧
    isrEnabled active = false ∧ workerEnabled active = false := by decide

-- IrqAccepted: the gate open and closed (vector I-E1 and the example of R100).
theorem test_witness_irq :
    (active.mode = .active ∧ active.isr = .off ∧ RegFile.byte active.hw 0x04 = some 0x80) ∧
    (RegFile.byte State.reset.hw 0x04 = some 0x00 ∧ RegFile.byte State.reset.hw 0x05 = some 0x00) := by decide

-- FireStartsWorker (W-5) and LifecycleEventsAccepted, each event accepted in some state.
theorem test_witness_events :
    ({ active with slot := .pending 250 }.slot = .pending 250 ∧ active.wpc = .wIdle ∧ active.mode = .active) ∧
    (State.reset.mode = .detached ∧ State.reset.lpc = .lIdle) ∧ active.lpc = .lIdle ∧
    { active with mode := .suspended }.mode = .suspended := by decide

-- ReadResult: a cached register; a volatile one in cache-only mode; a bus read.
theorem test_witness_readCached :
    Cached 0x1A 0x12 { active with shadow := RegFile.setBits RegFile.unknown 0x1A 0xFF 0x12 } := by
  unfold Cached
  decide
theorem test_witness_readCacheOnly :
    (∀ v, ¬Cached 0x00 v { State.reset with cacheOnly := true }) ∧
    AnswerReady 0x00 { State.reset with cacheOnly := true } :=
  ⟨fun _ h => absurd h.1 (by decide), .inl rfl⟩
theorem test_witness_readBus :
    (∀ v, ¬Cached 0x00 v (answered 0x00 0x84 active)) ∧ AnswerReady 0x00 (answered 0x00 0x84 active) ∧
    (answered 0x00 0x84 active).cacheOnly = false :=
  ⟨fun _ h => absurd h.1 (by decide), .inr ⟨⟨0x00, true, some 0x84⟩, by decide, rfl⟩, rfl⟩

-- ScriptAnswers: no answer, a queued answer behind another register's, no failure, a queued failure.
theorem test_witness_stuck :
    (∀ v, ¬Cached 0x00 v active) ∧ active.env.scripted = true ∧ (∀ x ∈ active.env.reads, x.addr ≠ 0x00) :=
  ⟨fun _ h => absurd h.1 (by decide), rfl, by decide⟩

theorem test_witness_scriptQueues :
    (∀ v, ¬Cached 0x00 v active) ∧
    { active.env with reads := [⟨0x15, true, none⟩, ⟨0x00, false, some 0x84⟩] }.reads =
      [⟨0x15, true, none⟩] ++ ⟨0x00, false, some 0x84⟩ :: [] ∧
    active.cacheOnly = false ∧ active.env.writes = [] ∧
    { active.env with writes := [⟨0x04, true⟩] }.writes = [] ++ ⟨0x04, true⟩ :: [] :=
  ⟨fun _ h => absurd h.1 (by decide), rfl, rfl, rfl, rfl⟩

-- R83, R55: a queued failure of an update that took effect.
theorem test_script_updateFails :
    nextOf (exec (.update 0x1D 0x80 0x80) { active with env := ⟨true, [], [⟨0x1D, true⟩], []⟩ })
      (fun t => decide (t.env.writes = [] ∧ RegFile.bit t.hw 0x1D 7 = some true ∧
        t.trace = [.port (.update 0x1D 0x80 0x80) false (some .bus), .log (.ioError 0x1D)])) = true := by decide

-- WriteResult, UpdateResult, PortFrame, ResyncResult: canonical register files, both modes.
theorem test_witness_port :
    RegFile.wf active.hw = true ∧ RegFile.wf active.shadow = true ∧ active.cacheOnly = false ∧
    { active with cacheOnly := true }.cacheOnly = true ∧
    nextOf (exec (.read 0x00) (answered 0x00 0x84 active)) (fun _ => true) = true ∧
    nextOf (exec (.write 0xFF 0x01) active) (fun _ => true) = true ∧
    nextOf (exec (.update 0x00 0xFF 0x01) active) (fun _ => true) = true := by decide

-- ResyncResult: a volatile and a non-volatile address.
theorem test_witness_resync : isVolatile active.cfg 0x1E = true ∧ isVolatile active.cfg 0x1A = false := by decide

-- ResultRows: the fourth row.
theorem test_witness_resFourth :
    Instr.wellFormed cfgFourth (.resFourth 0x21) = true ∧
    cfgFourth.fourthCode = some (0x21, ⟨0x0A, ⟨0x00, 0x40, 0x00⟩, true⟩) := by decide

-- RearmOpensGate: EX is admitted, with or without failing transactions.
theorem test_witness_cfgOk : cfgOk Cfg.ex = true ∧ cfgOk { Cfg.ex with ioFail := false } = true := by decide

-- FormableTriplets.
theorem test_witness_hpField :
    Cfg.ex.hpField ∈ [⟨0, 0x80⟩, ⟨0, 0x04⟩, ⟨1, 0x20⟩, ⟨1, 0x10⟩] := by decide

-- RearmOpensGate: all its premises together, and under IO_FAIL two writes that succeed.
theorem test_witness_gate :
    (fun s : State => cfgOk s.cfg = true ∧ RegFile.wf s.hw = true ∧ s.cacheOnly = false ∧ s.cfg.ioFail = true ∧
      s.wpc = .rMask1 ∧ s.jack = some .unknown) (running .rMask1 active) ∧
    nextOf (workerStep (running .rMask1 active)) (fun t =>
      decide (t.trace[0]? = some (.port (.write 0x04 0x80) true (some .bus))) &&
      nextOf (workerStep t) (fun u =>
        decide (u.trace[1]? = some (.port (.write 0x05 0x00) true (some .bus))))) = true ∧
    { Cfg.ex with ioFail := false }.ioFail = false := by decide

-- KeyRows: the pair and the byte give a button.
theorem test_witness_button : decideButton Cfg.ex 0x01 0x04 (adcMap Cfg.ex 0xA0) = some .button2 := by decide

-- KeyDecodeStep.
theorem test_witness_keyDecide :
    (running .eKeyDecide active).wpc = .eKeyDecide ∧ (running .eKeyDecide active).loc.s0 = some 0x05 ∧
    (running .eKeyDecide active).loc.s1 = some 0x04 ∧ (running .eKeyDecide active).loc.ks = some 0x8A := by decide

-- AdcMapInjectiveButtonMonotone: two bytes with one mapped value, and the values where buttons change.
theorem test_witness_adcMap :
    adcMap Cfg.ex 0x0A = adcMap Cfg.ex 0x8A ∧ pairFieldSet Cfg.ex.mcswField 0x01 0x04 = false ∧
    key2Set Cfg.ex 0x01 0x04 = true ∧ decideButton Cfg.ex 0x01 0x04 15 = some .button0 ∧
    decideButton Cfg.ex 0x01 0x04 16 = some .button1 ∧ decideButton Cfg.ex 0x01 0x04 95 = some .button1 ∧
    decideButton Cfg.ex 0x01 0x04 96 = some .button2 := by decide

-- HandlerBody: a read with and without the flag, and the other labels.
theorem test_witness_handler :
    (∃ t, portRead 0x00 { answered 0x00 0x84 active with isr := .read, ignoreNext := true } = some (true, 0x84, t)) ∧
    (0x84 : Byte) &&& Cfg.ex.s0EventMask = Cfg.ex.s0PlugSwEvent ∧
    ¬(0x85 : Byte) &&& Cfg.ex.s0EventMask = Cfg.ex.s0PlugSwEvent :=
  ⟨⟨_, rfl⟩, by decide, by decide⟩

-- SlotTransitions, WorkerStartAndEnd: every value of the slot and of st.jack.
theorem test_witness_slots :
    (∀ w ∈ [WorkSlot.idle, .pending 10, .running, .runningPending 10], { active with slot := w }.slot = w) ∧
    (∀ j ∈ [JackState.none, .unknown, .headphone, .headset, .lineOut],
      { active with jack := some j, wpc := .wDispatch }.jack = some j) ∧ State.reset.jack = none := by decide

-- DebounceSteps: an inactive sample, an active one before the last, and the last (Q-D3, Q-D1).
theorem test_witness_debounce :
    (∃ t, portRead 0x00 (running (.dDeb 37) (answered 0x00 0x04 active)) = some (true, 0x04, t)) ∧
    (0xFB : Byte) &&& Cfg.ex.s0JackSw = 0 ∧ (0x04 : Byte) &&& Cfg.ex.s0JackSw ≠ 0 ∧ 37 < Cfg.ex.debounceSamples ∧
    ¬38 < Cfg.ex.debounceSamples :=
  ⟨⟨_, rfl⟩, by decide, by decide, by decide, by decide⟩

-- AttemptSteps: no operation, the first and the last operation; a done poll, a poll before the last, the last.
theorem test_witness_attempt :
    testStart { Cfg.ex with testStartV0 := [] } = [] ∧ (testStart Cfg.ex)[1 - 1]? = some (.write 0x1A 0x5F) ∧
    (testStart Cfg.ex)[3 - 1]? = some (.write 0x1E 0x01) ∧ ¬3 < (testStart Cfg.ex).length ∧
    (0x01 : Byte) &&& Cfg.ex.doneMask ≠ 0 ∧ (0x00 : Byte) &&& Cfg.ex.doneMask = 0 ∧ 4 < Cfg.ex.pollCap ∧
    ¬5 < Cfg.ex.pollCap := by decide
theorem test_witness_attemptReads :
    (∃ t, portRead 0x10 (running (.dPoll 1 5) (answered 0x10 0x00 active)) = some (true, 0x00, t)) ∧
    (∃ t, portRead 0x11 (running (.dResult 1) (answered 0x11 0x09 active)) = some (true, 0x09, t)) :=
  ⟨⟨_, rfl⟩, ⟨_, rfl⟩⟩

-- RetryStep: success, a failure with two left, a failure with one left.
theorem test_witness_retry :
    (running (.dRetry 1) active).loc.timedOut = some false ∧ (running (.dRetry 1) active).det = some entry09 ∧
    entry09.succeeded = true ∧ entryFailBias.succeeded = false ∧ (running (.dRetry 1) active).retry = some 3 ∧
    { active with retry := some 2 }.retry = some 2 ∧ { active with retry := some 1 }.retry = some 1 := by decide

-- ApplyResult, DetectionReports, DetectionAftermath: the labels with their locals written.
theorem test_witness_detection :
    (running .dForce active).det = some entry09 ∧ (running .dReport active).jack = some .unknown ∧
    (running .dReport active).loc.aborted = some false ∧ (running .dReport active).loc.trip = some zeroTriplet ∧
    { (running .dReport active).loc with aborted := some true }.aborted = some true ∧
    (running .dSupp active).loc.newState = some .headset ∧
    { (running .dHiz active).loc with newState := some .none }.newState = some .none := by decide
theorem test_witness_recheck :
    ∃ t, portRead 0x00 (running .dRecheck (answered 0x00 0x04 active)) = some (true, 0x04, t) := ⟨_, rfl⟩

-- EventFlowSteps, RemovalSteps, RearmWrites.
theorem test_witness_eventFlow :
    (∃ t, portRead 0x01 (running .eReadS1 (answered 0x01 0x40 active)) = some (true, 0x40, t)) ∧
    (∃ t, portRead 0x15 (running .eKeyscan (answered 0x15 0x8A active)) = some (true, 0x8A, t)) ∧
    (running .eTest active).snap = some 0x84 ∧ (running .eReadS1 active).loc.s0 = some 0x05 :=
  ⟨⟨_, rfl⟩, ⟨_, rfl⟩, rfl, rfl⟩
theorem test_witness_rearm :
    (running .rMask1 active).jack = some .unknown ∧ (running .rMask2 active).loc.nextState = some .headset ∧
    (running .eReportNone active).jack = some .unknown := by decide
theorem test_witness_removal : RunInv { running .eReportNone active with jack := some .headset } where
  control := ⟨by decide, by decide, by decide, by decide⟩
  label := by decide

-- AttachSteps, SuspendSteps, ResumeSteps, RemoveSteps.
theorem test_witness_lifecycle :
    (∃ t, portRead 0x0B (answered 0x0B 0x91 { active with lpc := .aId }) = some (true, 0x91, t)) ∧
    (0x91 : Byte) ∈ Cfg.ex.idOk ∧ (0x00 : Byte) ∉ Cfg.ex.idOk ∧ { State.reset with lpc := .aInit }.slot = .idle ∧
    [StoreOp.write 0x20 0x01][1 - 1]? = some (.write 0x20 0x01) ∧
    [StoreOp.update 0x20 0x0F 0x01][1 - 1]? = some (.update 0x20 0x0F 0x01) ∧ active.wpc = .wIdle ∧ active.isr = .off :=
  ⟨⟨_, rfl⟩, by decide, by decide, rfl, rfl, rfl, rfl, rfl⟩

-- SuspendSteps: the quiescent writes reach the codec.
theorem test_witness_suspend :
    active.cacheOnly = false ∧ RegFile.wf active.hw = true ∧
    nextOf (hostStep { active with lpc := .sHiz }) (fun t => decide (RegFile.byte t.hw 0x1A = some 0x00)) = true ∧
    Cfg.ex.enMask.getLsbD 7 = true ∧
    nextOf (hostStep { active with lpc := .sDisable })
      (fun t => decide (RegFile.bit t.hw 0x1D 7 = some false)) = true := by decide

-- ResetState.
theorem test_witness_reset : Cfg.ex.regIrqMask1 ≠ Cfg.ex.regIrqMask2 := by decide

/-- A block in attempt 2 of a detection, about to test it. -/
def midRun : State := { running (.dRetry 2) active with retry := some 2 }

-- The invariants hold in the middle of a run, and the run goes on.
theorem test_witness_runInv : RunInv midRun where
  control := ⟨by decide, by decide, by decide, by decide⟩
  label := by decide
theorem test_witness_runInvStep : ∃ t, step midRun = .next t ∧ decide (t.wpc = .dForce) = true :=
  nextOf_exists (by decide)
theorem test_witness_registers : regFilesWf midRun = true ∧ NoVolatileShadow midRun :=
  ⟨by decide, fun _ _ => rfl⟩
theorem test_witness_bounded :
    cfgOk midRun.cfg = true ∧ midRun.wpc ≠ .wIdle ∧ (midRun.wpc = .eTest → midRun.snap ≠ none) := by decide

/-- The first detection after an attach, before any interrupt (program P1). -/
def firstRun : State := { running (.dDeb 1) active with snap := none, det := none }

theorem test_witness_firstRun : RunInv firstRun ∧ firstRun.snap = none ∧ stepsLeft firstRun = 80 :=
  ⟨⟨⟨by decide, by decide, by decide, by decide⟩, by decide⟩, by decide, by decide⟩

-- ControlInvariantKept: the last step of a suspend turns cache-only mode on with the mode.
theorem test_witness_cacheMode :
    cacheModeOk { active with lpc := .sCache } = true ∧
    nextOf (step { active with lpc := .sCache })
      (fun t => cacheModeOk t && decide (t.mode = .suspended ∧ t.cacheOnly = true)) = true := by decide

-- RunEndsWithRearm.
theorem test_witness_runEnds :
    (∃ t, step (running .rMask1 active) = .next t ∧ decide (t.wpc = .rMask2) = true) ∧
    (∃ t, step (running .rMask2 active) = .next t ∧ decide (t.wpc = .wEnd) = true) :=
  ⟨nextOf_exists (by decide), nextOf_exists (by decide)⟩

/-- A block at `E_TEST` in the race of 40_dispatcher.md R109: no interrupt yet. -/
def race : State := { running .eTest active with snap := none, jack := some .headset }

-- OnlyTheSnapshotFaults.
theorem test_witness_race : RunInv race where
  control := ⟨by decide, by decide, by decide, by decide⟩
  label := by decide
theorem test_witness_raceStep : ∃ t, step race = .next t ∧ decide (t.faults ≠ race.faults) = true :=
  nextOf_exists (by decide)

-- PresentOnlyThroughAbsent: a key press keeps the state.
theorem test_witness_present : RunInv { running .eUnrecognized active with jack := some .headset } where
  control := ⟨by decide, by decide, by decide, by decide⟩
  label := by decide
theorem test_witness_presentStep :
    ∃ t, step { running .eUnrecognized active with jack := some .headset } = .next t ∧
      decide (t.jack = some .headset) = true := nextOf_exists (by decide)

-- JackWriters, ReportOnlyOnChange, SuppressionArmedOnlyForHeadset.
theorem test_witness_report :
    ∃ t, step { running .eReportNone active with jack := some .headset } = .next t ∧
      decide (t.jack ≠ some .headset ∧ TraceEvent.rep (.jack .none) ∈ t.trace.drop active.trace.length) = true :=
  nextOf_exists (by decide)
theorem test_witness_suppression :
    ∃ t, step (running .dSupp active) = .next t ∧ decide (t.ignoreNext = true) = true := nextOf_exists (by decide)

-- RemovedIsSilent.
theorem test_witness_removed : ControlInv { active with mode := .removed } :=
  ⟨by decide, by decide, by decide, by decide⟩
theorem test_witness_removedStep : ∃ t, step { active with mode := .removed } = .next t ∧ true = true :=
  nextOf_exists (by decide)

-- FinalStateIsQuiet.
theorem test_witness_final :
    isFinal active = true ∧ active.latch = none ∧ active.order ≠ .free ∧ active.script = [] := by decide

-- FrameOfOtherInstructions.
theorem test_witness_frame :
    (∃ t, exec .evIrq active = .next t ∧ decide (t.isr = .read ∧ t.lpc = .lIdle) = true) ∧
    (∃ t, exec .evProbe State.reset = .next t ∧ decide (t.lpc = .aPwrEn) = true) ∧
    (∃ t, exec (.btn0 0x03 0x00 0x8A) active = .next t ∧ decide (t.trace = active.trace) = true) :=
  ⟨nextOf_exists (by decide), nextOf_exists (by decide), nextOf_exists (by decide)⟩

end Sys2Proof.Tests
end

section
/-! What one step of each agent can do, one constructor per outcome. `workerStep_move`, `isrStep_move`,
`hostStep_move`, `exec_move` and `step_move` read an outcome off a step that goes on; statements about
every step are case splits on these and need no unfolding of the agents' definitions. -/

namespace Sys2Proof.Machine

/-- `s` with all that a port operation may change taken from `u`. -/
@[simp] def portTo (u s : State) : State :=
  { s with hw := u.hw, shadow := u.shadow, trace := u.trace, env := u.env, draws := u.draws }

/-- A port operation's result is `s` but for the port's part. -/
theorem OnlyPort.eq_portTo {s u : State} (h : OnlyPort s u) : u = portTo u s := h

/-! ## The worker -/

/-- The fault `f` is that of unwritten state or of an unwritten local which the worker's label reads. -/
def ReadsUnwritten (s : State) (f : ModelFault) : Prop :=
  match s.wpc with
  | .wDispatch | .dReReport | .eReportNone | .rMask1 => s.jack = none ∧ f = .unwrittenState .jack
  | .dRetry _ =>
    s.loc.timedOut = none ∧ f = .unwrittenLocal .timedOut ∨ s.det = none ∧ f = .unwrittenState .det ∨
      s.retry = none ∧ f = .unwrittenState .retry
  | .dForce => s.det = none ∧ f = .unwrittenState .det
  | .dReport =>
    s.loc.aborted = none ∧ f = .unwrittenLocal .aborted ∨ s.jack = none ∧ f = .unwrittenState .jack ∨
      s.loc.aborted = some true ∧ s.loc.trip = none ∧ f = .unwrittenLocal .trip ∨
      s.loc.aborted = some false ∧ s.det = none ∧ f = .unwrittenState .det
  | .dSupp => s.loc.newState = none ∧ f = .unwrittenLocal .newState
  | .dHiz =>
    s.loc.newState = none ∧ f = .unwrittenLocal .newState ∨ s.loc.aborted = none ∧ f = .unwrittenLocal .aborted
  | .eTest => s.snap = none ∧ f = .unwrittenState .snap
  | .eReadS1 => s.loc.s0 = none ∧ f = .unwrittenLocal .s0
  | .eKeyDecide =>
    s.loc.s0 = none ∧ f = .unwrittenLocal .s0 ∨ s.loc.s1 = none ∧ f = .unwrittenLocal .s1 ∨
      s.loc.ks = none ∧ f = .unwrittenLocal .ks
  | .eUnrecognized => s.loc.s0 = none ∧ f = .unwrittenLocal .s0 ∨ s.loc.s1 = none ∧ f = .unwrittenLocal .s1
  | .rMask2 => s.loc.nextState = none ∧ f = .unwrittenLocal .nextState
  | _ => False

/-- The outcomes of a step of the worker (10_state.md R30), with what it read. -/
inductive WorkerMove (s : State) : State → Prop
  | idle (hpc : s.wpc = .wIdle) : WorkerMove s s
  | stuck {f : ModelFault} (hf : ReadsUnwritten s f) : WorkerMove s (recordFault f s)
  | dispatch {j : JackState} (hpc : s.wpc = .wDispatch) (hj : s.jack = some j) :
      WorkerMove s (goto (if isPresent j then .eTest else .dEntry) s)
  | entry (hpc : s.wpc = .dEntry) :
      WorkerMove s (goto (.dDeb 1)
        { s with retry := some s.cfg.retryBudget, loc := { s.loc with aborted := some false } })
  | debounce {k : Nat} {ok : Bool} {v : Byte} {u : State} (hpc : s.wpc = .dDeb k)
      (hr : portRead s.cfg.regStatus0 s = some (ok, v, u)) :
      WorkerMove s (goto (if !jackSwitch s.cfg v then .dNotPresent
        else if k < s.cfg.debounceSamples then .dDeb (k + 1) else .dStart 1 1) (portTo u s))
  | notPresent (hpc : s.wpc = .dNotPresent) :
      WorkerMove s (goto .dReport { s with loc := { s.loc with aborted := some true, trip := some zeroTriplet } })
  | startNone {j q : Nat} (hpc : s.wpc = .dStart j q) (hop : (testStart s.cfg)[q - 1]? = none) :
      WorkerMove s (goto (.dPoll j 1) s)
  | start {j q : Nat} {op : StoreOp} (hpc : s.wpc = .dStart j q) (hop : (testStart s.cfg)[q - 1]? = some op) :
      WorkerMove s (goto (if q < (testStart s.cfg).length then .dStart j (q + 1) else .dPoll j 1) (portIssue op s))
  | pollDone {j i : Nat} {ok : Bool} {v : Byte} {u : State} (hpc : s.wpc = .dPoll j i)
      (hr : portRead s.cfg.regDetectDone s = some (ok, v, u)) (hv : anyBit v s.cfg.doneMask = true) :
      WorkerMove s (goto (.dResult j) { portTo u s with loc := { s.loc with timedOut := some false } })
  | pollAgain {j i : Nat} {ok : Bool} {v : Byte} {u : State} (hpc : s.wpc = .dPoll j i)
      (hr : portRead s.cfg.regDetectDone s = some (ok, v, u)) (hv : anyBit v s.cfg.doneMask = false)
      (hi : i < s.cfg.pollCap) : WorkerMove s (goto (.dPoll j (i + 1)) (portTo u s))
  | pollTimeout {j i : Nat} {ok : Bool} {v : Byte} {u : State} (hpc : s.wpc = .dPoll j i)
      (hr : portRead s.cfg.regDetectDone s = some (ok, v, u)) (hv : anyBit v s.cfg.doneMask = false)
      (hi : ¬ i < s.cfg.pollCap) :
      WorkerMove s (goto (.dResult j)
        (log .detectTimeout { portTo u s with loc := { s.loc with timedOut := some true } }))
  | result {j : Nat} {ok : Bool} {res : Byte} {u : State} (hpc : s.wpc = .dResult j)
      (hr : portRead s.cfg.regDetectResult s = some (ok, res, u)) :
      WorkerMove s (goto (.dRetry j) (latchResult res (decodeEntry s.cfg res) (portTo u s)))
  | retryAgain {j r : Nat} {timedOut : Bool} {det : DetectionResult} (hpc : s.wpc = .dRetry j)
      (ht : s.loc.timedOut = some timedOut) (hd : s.det = some det) (hfail : (timedOut || !det.succeeded) = true)
      (hr : s.retry = some r) (hleft : 0 < r - 1) :
      WorkerMove s (goto (.dStart (j + 1) 1) { s with retry := some (r - 1) })
  | retryExhausted {j r : Nat} {timedOut : Bool} {det : DetectionResult} (hpc : s.wpc = .dRetry j)
      (ht : s.loc.timedOut = some timedOut) (hd : s.det = some det) (hfail : (timedOut || !det.succeeded) = true)
      (hr : s.retry = some r) (hleft : ¬ 0 < r - 1) :
      WorkerMove s (goto .dForce (log .detectExhausted { s with retry := some (r - 1) }))
  | retrySucceeded {j : Nat} {timedOut : Bool} {det : DetectionResult} (hpc : s.wpc = .dRetry j)
      (ht : s.loc.timedOut = some timedOut) (hd : s.det = some det) (hok : ¬(timedOut || !det.succeeded) = true) :
      WorkerMove s (goto .dForce s)
  | force {det : DetectionResult} (hpc : s.wpc = .dForce) (hd : s.det = some det) :
      WorkerMove s (goto .dOvr (portWrite s.cfg.regForce det.force s))
  | override (hpc : s.wpc = .dOvr) :
      WorkerMove s (goto .dEn (portUpdate s.cfg.regOverride s.cfg.ovrMask 0x00 s))
  | enable (hpc : s.wpc = .dEn) :
      WorkerMove s (goto .dReport (portUpdate s.cfg.regEnable s.cfg.enMask s.cfg.enMask s))
  | reportAborted {j : JackState} {t : Triplet} (hpc : s.wpc = .dReport) (ha : s.loc.aborted = some true)
      (hj : s.jack = some j) (ht : s.loc.trip = some t) : WorkerMove s (goto .dSupp (reportClass j t s))
  | reportDetected {j : JackState} {det : DetectionResult} (hpc : s.wpc = .dReport)
      (ha : s.loc.aborted = some false) (hj : s.jack = some j) (hd : s.det = some det) :
      WorkerMove s (goto .dSupp (reportClass j det.status (log (.detectQuality det.status.b2) s)))
  | suppressHeadset (hpc : s.wpc = .dSupp) (hn : s.loc.newState = some .headset) :
      WorkerMove s (goto .dHiz { s with ignoreNext := true })
  | suppressOther {n : JackState} (hpc : s.wpc = .dSupp) (hn : s.loc.newState = some n) (hne : n ≠ .headset) :
      WorkerMove s (goto .dHiz s)
  | hizPresent {n : JackState} {aborted : Bool} (hpc : s.wpc = .dHiz) (hn : s.loc.newState = some n)
      (ha : s.loc.aborted = some aborted) (hp : isPresent n = true) :
      WorkerMove s (goto (if aborted then .rMask1 else .dRecheck) s)
  | hizAbsent {n : JackState} {aborted : Bool} (hpc : s.wpc = .dHiz) (hn : s.loc.newState = some n)
      (ha : s.loc.aborted = some aborted) (hp : ¬ isPresent n = true) :
      WorkerMove s (goto (if aborted then .rMask1 else .dRecheck) (portWrite s.cfg.regForce s.cfg.forceHiz s))
  | recheck {ok : Bool} {v : Byte} {u : State} (hpc : s.wpc = .dRecheck)
      (hr : portRead s.cfg.regStatus0 s = some (ok, v, u)) :
      WorkerMove s (goto (if jackSwitch s.cfg v then .rMask1 else .dReReport) (portTo u s))
  | reReport {j : JackState} (hpc : s.wpc = .dReReport) (hj : s.jack = some j) :
      WorkerMove s (goto .rMask1 (reportClass j zeroTriplet s))
  | test {s0 : Byte} (hpc : s.wpc = .eTest) (hs : s.snap = some s0) :
      WorkerMove s (goto (if jackSwitch s.cfg s0 then .eReadS1 else .eMuteL)
        { s with loc := { s.loc with s0 := some s0 } })
  | muteL (hpc : s.wpc = .eMuteL) :
      WorkerMove s (goto .eMuteR (portUpdate s.cfg.regLvol s.cfg.muteLMask s.cfg.muteLMask s))
  | muteR (hpc : s.wpc = .eMuteR) :
      WorkerMove s (goto .eDisable (portUpdate s.cfg.regRvol s.cfg.muteRMask s.cfg.muteRMask s))
  | disable (hpc : s.wpc = .eDisable) :
      WorkerMove s (goto .eReportNone (portUpdate s.cfg.regEnable s.cfg.enMask 0x00 s))
  | reportNone {j : JackState} (hpc : s.wpc = .eReportNone) (hj : s.jack = some j) :
      WorkerMove s (goto .rMask1 (reportState j .none s))
  | readS1 {s0 s1 : Byte} {ok : Bool} {u : State} (hpc : s.wpc = .eReadS1) (hs : s.loc.s0 = some s0)
      (hr : portRead s.cfg.regStatus1 s = some (ok, s1, u)) :
      WorkerMove s (goto (if keyOrLine s.cfg s0 s1 then .eKeyscan else .eUnrecognized)
        { portTo u s with loc := { s.loc with s1 := some s1 } })
  | keyscan {ks : Byte} {ok : Bool} {u : State} (hpc : s.wpc = .eKeyscan)
      (hr : portRead s.cfg.regKeyscan s = some (ok, ks, u)) :
      WorkerMove s (goto .eKeyDecide { portTo u s with loc := { s.loc with ks := some ks } })
  | keyDecide {s0 s1 ks : Byte} (hpc : s.wpc = .eKeyDecide) (h0 : s.loc.s0 = some s0) (h1 : s.loc.s1 = some s1)
      (hk : s.loc.ks = some ks) : WorkerMove s (goto .rMask1 (keyDecode s0 s1 ks s))
  | unrecognized {s0 s1 : Byte} (hpc : s.wpc = .eUnrecognized) (h0 : s.loc.s0 = some s0)
      (h1 : s.loc.s1 = some s1) : WorkerMove s (goto .rMask1 (log (.unrecognized s0 s1) s))
  | mask1 {j : JackState} (hpc : s.wpc = .rMask1) (hj : s.jack = some j) :
      WorkerMove s (goto .rMask2 (portWrite s.cfg.regIrqMask1 (rearmMasks s.cfg j).m1
        { s with loc := { s.loc with nextState := some j } }))
  | mask2 {j : JackState} (hpc : s.wpc = .rMask2) (hn : s.loc.nextState = some j) :
      WorkerMove s (goto .wEnd (portWrite s.cfg.regIrqMask2 (rearmMasks s.cfg j).m2 s))
  | finish (hpc : s.wpc = .wEnd) :
      WorkerMove s (goto .wIdle { s with loc := Locals.unwritten, det := none, slot := slotFinish s.slot })

/-- A label's step that goes on reads what is written and goes on with it, or the label reads something
unwritten and the worker is stuck there. -/
theorem needWritten_move {α : Type} {x : Option α} {f : ModelFault} {s t : State} {k : α → Result}
    (h : needWritten x f s k = .next t) (hf : x = none → ReadsUnwritten s f)
    (hk : ∀ v, x = some v → k v = .next t → WorkerMove s t) : WorkerMove s t := by
  obtain ⟨v, hv, hkv⟩ | ⟨hn, rfl⟩ := needWritten_next h
  · exact hk v hv hkv
  · exact .stuck (hf hn)

theorem sampleJackSwitch_next {s t : State} {k : Bool → State → State}
    (h : sampleJackSwitch s k = .next t) :
    ∃ ok v u, portRead s.cfg.regStatus0 s = some (ok, v, u) ∧ t = k (jackSwitch s.cfg v) (portTo u s) := by
  unfold sampleJackSwitch at h
  split at h
  · cases h
  · next ok v u hr =>
    cases h
    exact ⟨ok, v, u, hr, congrArg _ (portRead_onlyPort hr).eq_portTo⟩

section
variable {s t : State}

theorem dStart_move {j q : Nat} (hpc : s.wpc = .dStart j q) (h : dStart j q s = .next t) :
    WorkerMove s t := by
  unfold dStart at h
  split at h
  · next hop => cases h; exact .startNone hpc hop
  · next op hop => cases h; exact .start hpc hop

theorem dPoll_move {j i : Nat} (hpc : s.wpc = .dPoll j i) (h : dPoll j i s = .next t) : WorkerMove s t := by
  unfold dPoll at h
  split at h
  · cases h
  · next ok v u hr =>
    have hu := (portRead_onlyPort hr).eq_portTo
    split at h
    · next hv => cases h; rw [hu]; exact .pollDone hpc hr hv
    · next hv =>
      rw [Bool.not_eq_true] at hv
      split at h
      · next hi => cases h; rw [hu]; exact .pollAgain hpc hr hv hi
      · next hi => cases h; rw [hu]; exact .pollTimeout hpc hr hv hi

theorem dResult_move {j : Nat} (hpc : s.wpc = .dResult j) (h : dResult j s = .next t) : WorkerMove s t := by
  unfold dResult at h
  split at h
  · cases h
  · next ok res u hr => cases h; rw [(portRead_onlyPort hr).eq_portTo]; exact .result hpc hr

theorem dRetry_move {j : Nat} (hpc : s.wpc = .dRetry j) (h : dRetry j s = .next t) : WorkerMove s t := by
  refine needWritten_move h (fun hn => by simp [ReadsUnwritten, hpc, hn]) fun timedOut ht h => ?_
  refine needWritten_move h (fun hn => by simp [ReadsUnwritten, hpc, hn]) fun det hd h => ?_
  split at h
  · next hfail =>
    refine needWritten_move h (fun hn => by simp [ReadsUnwritten, hpc, hn]) fun r hr h => ?_
    dsimp only at h
    split at h
    · next hleft => cases h; exact .retryAgain hpc ht hd hfail hr hleft
    · next hleft => cases h; exact .retryExhausted hpc ht hd hfail hr hleft
  · next hok => cases h; exact .retrySucceeded hpc ht hd hok

theorem dReport_move (hpc : s.wpc = .dReport) (h : dReport s = .next t) : WorkerMove s t := by
  refine needWritten_move h (fun hn => by simp [ReadsUnwritten, hpc, hn]) fun aborted ha h => ?_
  refine needWritten_move h (fun hn => by simp [ReadsUnwritten, hpc, hn]) fun j hj h => ?_
  cases aborted with
  | true =>
    refine needWritten_move h (fun hn => by simp [ReadsUnwritten, hpc, ha, hn]) fun _ ht h => ?_
    cases h; exact .reportAborted hpc ha hj ht
  | false =>
    refine needWritten_move h (fun hn => by simp [ReadsUnwritten, hpc, ha, hn]) fun _ hd h => ?_
    cases h; exact .reportDetected hpc ha hj hd

theorem dHiz_move (hpc : s.wpc = .dHiz) (h : dHiz s = .next t) : WorkerMove s t := by
  refine needWritten_move h (fun hn => by simp [ReadsUnwritten, hpc, hn]) fun n hn h => ?_
  refine needWritten_move h (fun hn => by simp [ReadsUnwritten, hpc, hn]) fun aborted ha h => ?_
  cases h
  by_cases hp : isPresent n = true
  · rw [if_pos hp]; exact .hizPresent hpc hn ha hp
  · rw [if_neg hp]; exact .hizAbsent hpc hn ha hp

theorem eReadS1_move (hpc : s.wpc = .eReadS1) (h : eReadS1 s = .next t) : WorkerMove s t := by
  refine needWritten_move h (fun hn => by simp [ReadsUnwritten, hpc, hn]) fun s0 hs h => ?_
  split at h
  · cases h
  · next ok s1 u hr => cases h; rw [(portRead_onlyPort hr).eq_portTo]; exact .readS1 hpc hs hr

theorem eKeyscan_move (hpc : s.wpc = .eKeyscan) (h : eKeyscan s = .next t) : WorkerMove s t := by
  unfold eKeyscan at h
  split at h
  · cases h
  · next ok ks u hr => cases h; rw [(portRead_onlyPort hr).eq_portTo]; exact .keyscan hpc hr

theorem eKeyDecide_move (hpc : s.wpc = .eKeyDecide) (h : eKeyDecide s = .next t) : WorkerMove s t := by
  refine needWritten_move h (fun hn => by simp [ReadsUnwritten, hpc, hn]) fun s0 h0 h => ?_
  refine needWritten_move h (fun hn => by simp [ReadsUnwritten, hpc, hn]) fun s1 h1 h => ?_
  refine needWritten_move h (fun hn => by simp [ReadsUnwritten, hpc, hn]) fun ks hk h => ?_
  cases h; exact .keyDecide hpc h0 h1 hk

theorem eUnrecognized_move (hpc : s.wpc = .eUnrecognized) (h : eUnrecognized s = .next t) :
    WorkerMove s t := by
  refine needWritten_move h (fun hn => by simp [ReadsUnwritten, hpc, hn]) fun s0 h0 h => ?_
  refine needWritten_move h (fun hn => by simp [ReadsUnwritten, hpc, hn]) fun s1 h1 h => ?_
  cases h; exact .unrecognized hpc h0 h1

/-- A label that reads one piece of state or one local and then has a single outcome. -/
theorem needWritten_move_one {α : Type} {x : Option α} {f : ModelFault} {k : α → State}
    (h : needWritten x f s (fun v => .next (k v)) = .next t) (hf : x = none → ReadsUnwritten s f)
    (hk : ∀ v, x = some v → WorkerMove s (k v)) : WorkerMove s t :=
  needWritten_move h hf fun v hv h => by cases h; exact hk v hv

/-- Everything a step of the worker can do. -/
theorem workerStep_move (h : workerStep s = .next t) : WorkerMove s t := by
  unfold workerStep at h
  cases hpc : s.wpc <;> simp only [hpc] at h
  case wIdle => cases h; exact .idle hpc
  case dEntry => cases h; exact .entry hpc
  case dDeb => obtain ⟨ok, v, u, hr, rfl⟩ := sampleJackSwitch_next h; exact .debounce hpc hr
  case dNotPresent => cases h; exact .notPresent hpc
  case dStart => exact dStart_move hpc h
  case dPoll => exact dPoll_move hpc h
  case dResult => exact dResult_move hpc h
  case dRetry => exact dRetry_move hpc h
  case dOvr => cases h; exact .override hpc
  case dEn => cases h; exact .enable hpc
  case dReport => exact dReport_move hpc h
  case dHiz => exact dHiz_move hpc h
  case dRecheck => obtain ⟨ok, v, u, hr, rfl⟩ := sampleJackSwitch_next h; exact .recheck hpc hr
  case eMuteL => cases h; exact .muteL hpc
  case eMuteR => cases h; exact .muteR hpc
  case eDisable => cases h; exact .disable hpc
  case eReadS1 => exact eReadS1_move hpc h
  case eKeyscan => exact eKeyscan_move hpc h
  case eKeyDecide => exact eKeyDecide_move hpc h
  case eUnrecognized => exact eUnrecognized_move hpc h
  case wEnd => cases h; exact .finish hpc
  case wDispatch =>
    exact needWritten_move_one h (fun hn => by simp [ReadsUnwritten, hpc, hn]) fun _ => .dispatch hpc
  case dForce =>
    exact needWritten_move_one h (fun hn => by simp [ReadsUnwritten, hpc, hn]) fun _ => .force hpc
  case dSupp =>
    refine needWritten_move_one h (fun hn => by simp [ReadsUnwritten, hpc, hn]) fun n hn => ?_
    split
    · next hh => exact .suppressHeadset hpc (hh ▸ hn)
    · next hh => exact .suppressOther hpc hn hh
  case dReReport =>
    exact needWritten_move_one h (fun hn => by simp [ReadsUnwritten, hpc, hn]) fun _ => .reReport hpc
  case eTest =>
    exact needWritten_move_one h (fun hn => by simp [ReadsUnwritten, hpc, hn]) fun _ => .test hpc
  case eReportNone =>
    exact needWritten_move_one h (fun hn => by simp [ReadsUnwritten, hpc, hn]) fun _ => .reportNone hpc
  case rMask1 =>
    exact needWritten_move_one h (fun hn => by simp [ReadsUnwritten, hpc, hn]) fun _ => .mask1 hpc
  case rMask2 =>
    exact needWritten_move_one h (fun hn => by simp [ReadsUnwritten, hpc, hn]) fun _ => .mask2 hpc

end

/-! ## The interrupt handler -/

/-- The outcomes of a step of the interrupt handler (40_dispatcher.md R101). -/
inductive IsrMove (s : State) : State → Prop
  | off (hp : s.isr = .off) : IsrMove s s
  | suppressed {ok : Bool} {v : Byte} {u : State} (hp : s.isr = .read)
      (hr : portRead s.cfg.regStatus0 s = some (ok, v, u))
      (hi : (s.ignoreNext && plugSwitchOnly s.cfg v) = true) :
      IsrMove s (setIsr .off (log .suppressedSpurious { portTo u s with snap := some v, ignoreNext := false }))
  | read {ok : Bool} {v : Byte} {u : State} (hp : s.isr = .read)
      (hr : portRead s.cfg.regStatus0 s = some (ok, v, u))
      (hi : ¬(s.ignoreNext && plugSwitchOnly s.cfg v) = true) :
      IsrMove s (setIsr .mask1 { portTo u s with snap := some v, ignoreNext := false })
  | mask1 (hp : s.isr = .mask1) : IsrMove s (setIsr .mask2 (portWrite s.cfg.regIrqMask1 0x00 s))
  | mask2 (hp : s.isr = .mask2) : IsrMove s (setIsr .sched (portWrite s.cfg.regIrqMask2 0x00 s))
  | sched (hp : s.isr = .sched) : IsrMove s (setIsr .off (schedule s.cfg.tCoalesceMs s))

theorem isrRead_move {s t : State} (hp : s.isr = .read) (h : isrRead s = .next t) : IsrMove s t := by
  unfold isrRead at h
  split at h
  · cases h
  · next ok v u hr =>
    have hu := (portRead_onlyPort hr).eq_portTo
    dsimp only at h
    split at h
    · next hi => cases h; rw [hu]; exact .suppressed hp hr hi
    · next hi => cases h; rw [hu]; exact .read hp hr hi

/-- Everything a step of the interrupt handler can do. -/
theorem isrStep_move {s t : State} (h : isrStep s = .next t) : IsrMove s t := by
  unfold isrStep at h
  cases hp : s.isr <;> simp only [hp] at h
  case off => cases h; exact .off hp
  case read => exact isrRead_move hp h
  case mask1 => cases h; exact .mask1 hp
  case mask2 => cases h; exact .mask2 hp
  case sched => cases h; exact .sched hp

/-! ## The host -/

/-- The outcomes of a step of the host's lifecycle sequences (44_lifecycle.md R220 to R226). -/
inductive HostMove (s : State) : State → Prop
  | idle (hp : s.lpc = .lIdle) : HostMove s s
  | powerEnable (hp : s.lpc = .aPwrEn) : HostMove s (setLpc .aPwrV (powerCall .enable s))
  | powerVoltage (hp : s.lpc = .aPwrV) :
      HostMove s (setLpc .aId (powerCall (.setVoltage s.cfg.pwrTarget) s))
  | identified {ok : Bool} {v : Byte} {u : State} (hp : s.lpc = .aId)
      (hr : portRead s.cfg.regId s = some (ok, v, u)) (hid : (ok && idMatches s.cfg v) = true) :
      HostMove s (setLpc .aInit (portTo u s))
  | notIdentified {ok : Bool} {v : Byte} {u : State} (hp : s.lpc = .aId)
      (hr : portRead s.cfg.regId s = some (ok, v, u)) (hid : ¬(ok && idMatches s.cfg v) = true) :
      HostMove s (setLpc .lIdle (log (.idMismatch v) { portTo u s with mode := .attachFailed }))
  | init (hp : s.lpc = .aInit) :
      HostMove s (setLpc .lIdle (schedule s.cfg.tInitMs
        { s with
          jack := some .unknown
          ignoreNext := false
          snap := none
          det := none
          cacheOnly := false
          mode := .active }))
  | suspendCancel (hp : s.lpc = .sCancel) : HostMove s (setLpc .sHiz (cancel s))
  | suspendHiz (hp : s.lpc = .sHiz) :
      HostMove s (setLpc .sDisable (portWrite s.cfg.regForce s.cfg.forceHiz s))
  | suspendDisable (hp : s.lpc = .sDisable) :
      HostMove s (setLpc .sCache (portUpdate s.cfg.regEnable s.cfg.enMask 0x00 s))
  | suspended (hp : s.lpc = .sCache) :
      HostMove s (setLpc .lIdle { portCacheOnly true s with mode := .suspended })
  | resumeCache (hp : s.lpc = .uCache) : HostMove s (setLpc .uResync (portCacheOnly false s))
  | resync (hp : s.lpc = .uResync) :
      HostMove s (setLpc (if s.cfg.clockDivWrites = [] then .uState else .uClk 1) (portResync s))
  | clockNone {q : Nat} (hp : s.lpc = .uClk q) (hop : s.cfg.clockDivWrites[q - 1]? = none) :
      HostMove s (setLpc .uState s)
  | clock {q : Nat} {op : StoreOp} (hp : s.lpc = .uClk q) (hop : s.cfg.clockDivWrites[q - 1]? = some op) :
      HostMove s (setLpc (if q < s.cfg.clockDivWrites.length then .uClk (q + 1) else .uState) (portIssue op s))
  | resumed (hp : s.lpc = .uState) :
      HostMove s (setLpc .lIdle (schedule s.cfg.tResumeMs
        { s with jack := some .unknown, ignoreNext := false, mode := .active }))
  | removeCancel (hp : s.lpc = .xCancel) : HostMove s (setLpc .xJoin (cancel s))
  | held (hp : s.lpc = .xJoin) (hj : ¬ joinReady s = true) : HostMove s s
  | removed (hp : s.lpc = .xJoin) (hj : joinReady s = true) :
      HostMove s (setLpc .lIdle { s with slot := slotJoin s.slot, mode := .removed })

theorem aId_move {s t : State} (hp : s.lpc = .aId) (h : aId s = .next t) : HostMove s t := by
  unfold aId at h
  split at h
  · cases h
  · next ok v u hr =>
    have hu := (portRead_onlyPort hr).eq_portTo
    split at h
    · next hid => cases h; rw [hu]; exact .identified hp hr hid
    · next hid => cases h; rw [hu]; exact .notIdentified hp hr hid

theorem uClk_move {q : Nat} {s t : State} (hp : s.lpc = .uClk q) (h : uClk q s = .next t) : HostMove s t := by
  unfold uClk at h
  split at h
  · next hop => cases h; exact .clockNone hp hop
  · next op hop => cases h; exact .clock hp hop

theorem xJoin_move {s t : State} (hp : s.lpc = .xJoin) (h : xJoin s = .next t) : HostMove s t := by
  cases h
  split
  · next hj => exact .removed hp hj
  · next hj => exact .held hp hj

/-- Everything a step of the host can do. -/
theorem hostStep_move {s t : State} (h : hostStep s = .next t) : HostMove s t := by
  unfold hostStep at h
  cases hp : s.lpc <;> simp only [hp] at h
  case lIdle => cases h; exact .idle hp
  case aPwrEn => cases h; exact .powerEnable hp
  case aPwrV => cases h; exact .powerVoltage hp
  case aId => exact aId_move hp h
  case aInit => cases h; exact .init hp
  case sCancel => cases h; exact .suspendCancel hp
  case sHiz => cases h; exact .suspendHiz hp
  case sDisable => cases h; exact .suspendDisable hp
  case sCache => cases h; exact .suspended hp
  case uCache => cases h; exact .resumeCache hp
  case uResync => cases h; exact .resync hp
  case uClk => exact uClk_move hp h
  case uState => cases h; exact .resumed hp
  case xCancel => cases h; exact .removeCancel hp
  case xJoin => exact xJoin_move hp h

/-! ## Events and words -/

/-- The outcomes of an event (44_lifecycle.md R227). -/
inductive EventMove (s : State) : State → Prop
  | ignored : EventMove s s
  | probe (hm : s.mode = .detached) (hp : s.lpc = .lIdle) : EventMove s (setLpc .aPwrEn s)
  | irq (ha : attached s = true) (hp : s.isr = .off) (ho : maskOpen s = true) : EventMove s (setIsr .read s)
  | fire {d : Nat} (hs : s.slot = .pending d) (hp : s.wpc = .wIdle) (ha : attached s = true) :
      EventMove s (goto .wDispatch { s with slot := .running })
  | suspend (hm : s.mode = .active) (hp : s.lpc = .lIdle) : EventMove s (setLpc .sCancel s)
  | resume (hm : s.mode = .suspended) (hp : s.lpc = .lIdle) : EventMove s (setLpc .uCache s)
  | remove (ha : attached s = true) (hp : s.lpc = .lIdle) : EventMove s (setLpc .xCancel s)

/-- An event is accepted where it is enabled, and is ignored otherwise. -/
theorem EventMove.of_if {s t u : State} {enabled : Bool}
    (h : (Host.Outcome.next (if enabled then u else s) : Result) = .next t)
    (hu : enabled = true → EventMove s u) : EventMove s t := by
  cases h
  split
  · next he => exact hu he
  · exact .ignored

/-- The timer fires a pending slot of an attached block whose worker is idle (R104). -/
theorem eventEnabled_fire {s : State} (h : eventEnabled s .fire = true) :
    ∃ d, s.slot = .pending d ∧ s.wpc = .wIdle ∧ attached s = true := by
  cases hs : s.slot <;> simp [eventEnabled, hs] at h
  case pending d => exact ⟨d, rfl, h⟩

/-- Everything an event can do. -/
theorem exec_event_move {e : Event} {s t : State} (h : exec e.instr s = .next t) : EventMove s t := by
  cases e with
  | probe =>
    refine .of_if h fun he => ?_
    obtain ⟨hm, hp⟩ : s.mode = .detached ∧ s.lpc = .lIdle := by simpa [eventEnabled] using he
    exact .probe hm hp
  | irq =>
    refine .of_if h fun he => ?_
    obtain ⟨⟨ha, hp⟩, ho⟩ : (attached s = true ∧ s.isr = .off) ∧ maskOpen s = true := by
      simpa [eventEnabled] using he
    exact .irq ha hp ho
  | fire =>
    refine .of_if h fun he => ?_
    obtain ⟨d, hs, hp, ha⟩ := eventEnabled_fire he
    exact .fire hs hp ha
  | suspend =>
    refine .of_if h fun he => ?_
    obtain ⟨hm, hp⟩ : s.mode = .active ∧ s.lpc = .lIdle := by simpa [eventEnabled] using he
    exact .suspend hm hp
  | resume =>
    refine .of_if h fun he => ?_
    obtain ⟨hm, hp⟩ : s.mode = .suspended ∧ s.lpc = .lIdle := by simpa [eventEnabled] using he
    exact .resume hm hp
  | remove =>
    refine .of_if h fun he => ?_
    obtain ⟨ha, hp⟩ : attached s = true ∧ s.lpc = .lIdle := by simpa [eventEnabled] using he
    exact .remove ha hp

/-- The outcomes of the instructions that are no event: port, report and decode-table words. -/
inductive WordMove (s : State) : State → Prop
  | port {u : State} (hu : OnlyPort s u) : WordMove s (portTo u s)
  | cacheOnly (b : Bool) : WordMove s (portCacheOnly b s)
  | result (res : Byte) (e : DetectionResult) : WordMove s (latchResult res e s)
  | classify (t : Triplet) (j : JackState) : WordMove s (latchClass t j s)
  | keyscan (ks : Byte) : WordMove s (latchKeyscan ks s)
  | button (ks : Byte) (b : KeyChoice) : WordMove s (latchButton ks b s)
  | noButton (s0 s1 ks : Byte) :
      WordMove s (log (.unrecognizedKey s0 s1 ks) (latchButton ks .unrecognized s))

theorem OnlyPort.wordMove {s u : State} (h : OnlyPort s u) : WordMove s u := by
  rw [h.eq_portTo]
  exact .port h

theorem execRead_move {a : Byte} {s t : State} (h : execRead a s = .next t) : WordMove s t := by
  unfold execRead at h
  split at h
  · next hr => cases h; exact (portRead_onlyPort hr).wordMove
  · cases h

/-- Everything an instruction can do. -/
theorem exec_move {i : Instr} {s t : State} (h : exec i s = .next t) : EventMove s t ∨ WordMove s t := by
  cases i with
  | evProbe => exact .inl (exec_event_move (e := .probe) h)
  | evIrq => exact .inl (exec_event_move (e := .irq) h)
  | evFire => exact .inl (exec_event_move (e := .fire) h)
  | evSuspend => exact .inl (exec_event_move (e := .suspend) h)
  | evResume => exact .inl (exec_event_move (e := .resume) h)
  | evRemove => exact .inl (exec_event_move (e := .remove) h)
  | read a => exact .inr (execRead_move h)
  | write a v => cases h; exact .inr (portWrite_onlyPort a v s).wordMove
  | update a m v => cases h; exact .inr (portUpdate_onlyPort a m v s).wordMove
  | cacheOnly b => cases h; exact .inr (.cacheOnly b)
  | resync => cases h; exact .inr (portResync_onlyPort s).wordMove
  | repJack j => cases h; exact .inr (OnlyPort.wordMove rfl)
  | repButton b => cases h; exact .inr (OnlyPort.wordMove rfl)
  | repRelease => cases h; exact .inr (OnlyPort.wordMove rfl)
  | res01 => cases h; exact .inr (.result _ _)
  | res09 => cases h; exact .inr (.result _ _)
  | res19 => cases h; exact .inr (.result _ _)
  | resFourth res => cases h; exact .inr (.result _ _)
  | resFailBias res => cases h; exact .inr (.result _ _)
  | resFailNoBias res => cases h; exact .inr (.result _ _)
  | clHeadset t => cases h; exact .inr (.classify _ _)
  | clHeadphone t => cases h; exact .inr (.classify _ _)
  | clLineOut t => cases h; exact .inr (.classify _ _)
  | clNone t => cases h; exact .inr (.classify _ _)
  | keyscan ks => cases h; exact .inr (.keyscan ks)
  | btn0 s0 s1 ks => cases h; exact .inr (.button _ _)
  | btn1 s0 s1 ks => cases h; exact .inr (.button _ _)
  | btn2 s0 s1 ks => cases h; exact .inr (.button _ _)
  | btnNone s0 s1 ks => cases h; exact .inr (.noButton _ _ _)

/-! ## A step of the machine -/

/-- The outcomes of a step, once the input is used up: one agent's, one event's, one offered word's, or no
agent moves. -/
inductive BlockMove (s t : State) : Prop
  | word (h : WordMove s t)
  | event (h : EventMove s t)
  | host (h : HostMove s t)
  | isr (h : IsrMove s t)
  | worker (h : WorkerMove s t)
  | quiet (h : OnlyModel s t)

/-- A run that is not refused has a configuration the model takes. -/
theorem cfgOk_of_runRefusal {s : State} (h : runRefusal s = none) : cfgOk s.cfg = true := by
  unfold runRefusal at h
  split at h
  · assumption
  · cases h

/-- Everything a step can do, on the state `u` in which the input is used up. -/
theorem step_move {s t : State} (h : step s = .next t) :
    cfgOk s.cfg = true ∧ ∃ u, OnlyModel s u ∧ BlockMove u t := by
  obtain ⟨hr, u, hu, hcases⟩ := step_next h
  refine ⟨cfgOk_of_runRefusal hr, u, hu, ?_⟩
  obtain ⟨_, i, hi⟩ | ⟨e, he⟩ | hh | hi | hw | hq := hcases
  · exact (exec_move hi).elim .event .word
  · exact .event (exec_event_move he)
  · exact .host (hostStep_move hh)
  · exact .isr (isrStep_move hi)
  · exact .worker (workerStep_move hw)
  · exact .quiet hq

end Sys2Proof.Machine
end

section
/-! Which steps write `st.jack`, the suppression flag and the fault list (10_state.md R20, R22, R36). -/

namespace Sys2Proof.Machine

section
variable {s t : State}

/-! ## `st.jack` -/

theorem WordMove.jack (h : WordMove s t) : t.jack = s.jack := by cases h <;> rfl

theorem EventMove.jack (h : EventMove s t) : t.jack = s.jack := by cases h <;> rfl

theorem IsrMove.jack (h : IsrMove s t) : t.jack = s.jack := by cases h <;> simp

/-- Of the host's steps only those of attach and resume write `st.jack`, as Unknown (R223, R225). -/
theorem HostMove.jack (h : HostMove s t) :
    t.jack = s.jack ∨ (s.lpc = .aInit ∨ s.lpc = .uState) ∧ t.jack = some .unknown := by
  cases h with
  | init hp => exact .inr ⟨.inl hp, rfl⟩
  | resumed hp => exact .inr ⟨.inr hp, rfl⟩
  | _ => left; simp

/-- Of the worker's steps only the report steps and the removal write `st.jack` (R134, R137). -/
theorem WorkerMove.jack (h : WorkerMove s t) :
    t.jack = s.jack ∨
      (s.wpc = .dReport ∨ s.wpc = .dReReport ∨ s.wpc = .eReportNone) ∧ t.jack.isSome = true := by
  cases h with
  | reportAborted hpc | reportDetected hpc => exact .inr ⟨.inl hpc, rfl⟩
  | reReport hpc => exact .inr ⟨.inr (.inl hpc), rfl⟩
  | reportNone hpc => exact .inr ⟨.inr (.inr hpc), rfl⟩
  | _ => left; simp

/-! ## The suppression flag -/

theorem WordMove.ignoreNext (h : WordMove s t) : t.ignoreNext = s.ignoreNext := by cases h <;> rfl

theorem EventMove.ignoreNext (h : EventMove s t) : t.ignoreNext = s.ignoreNext := by cases h <;> rfl

/-- The handler's read of the flag clears it (R101). -/
theorem IsrMove.ignoreNext (h : IsrMove s t) : t.ignoreNext = s.ignoreNext ∨ t.ignoreNext = false := by
  cases h <;> simp

/-- Attach and resume clear the flag (R223, R225). -/
theorem HostMove.ignoreNext (h : HostMove s t) : t.ignoreNext = s.ignoreNext ∨ t.ignoreNext = false := by
  cases h <;> simp

/-- The worker writes the flag only at `D_SUPP`, and only for Headset (R176). -/
theorem WorkerMove.ignoreNext (h : WorkerMove s t) :
    t.ignoreNext = s.ignoreNext ∨ s.wpc = .dSupp ∧ s.loc.newState = some .headset := by
  cases h with
  | suppressHeadset hpc hn => exact .inr ⟨hpc, hn⟩
  | _ => left; simp

/-! ## The fault list -/

theorem WordMove.faults (h : WordMove s t) : t.faults = s.faults := by cases h <;> rfl

theorem EventMove.faults (h : EventMove s t) : t.faults = s.faults := by cases h <;> rfl

theorem IsrMove.faults (h : IsrMove s t) : t.faults = s.faults := by cases h <;> simp

theorem HostMove.faults (h : HostMove s t) : t.faults = s.faults := by cases h <;> simp

/-- The worker records a fault only where its label reads something unwritten (R36, R31). -/
theorem WorkerMove.faults (h : WorkerMove s t) :
    t.faults = s.faults ∨ ∃ f, ReadsUnwritten s f ∧ t = recordFault f s := by
  cases h with
  | stuck hf => exact .inr ⟨_, hf, rfl⟩
  | _ => left; simp

end

/-! ## The obligations -/

/-- Settles O55: of all moves only the host's attach and resume steps and the worker's report steps and
removal write `st.jack`. -/
theorem jackWriters : Obligations.JackWriters := by
  intro s t hstep hne
  obtain ⟨_, u, hu, hmove⟩ := step_move hstep
  rw [← hu.jack] at hne
  rw [← hu.wpc, ← hu.lpc]
  cases hmove with
  | word h => exact absurd h.jack hne
  | event h => exact absurd h.jack hne
  | isr h => exact absurd h.jack hne
  | quiet h => exact absurd h.jack hne
  | host h =>
    obtain h | ⟨hp | hp, _⟩ := h.jack
    · exact absurd h hne
    · exact .inr (.inr (.inr (.inl hp)))
    · exact .inr (.inr (.inr (.inr hp)))
  | worker h =>
    obtain h | ⟨hp | hp | hp, _⟩ := h.jack
    · exact absurd h hne
    · exact .inl hp
    · exact .inr (.inl hp)
    · exact .inr (.inr (.inl hp))

/-- Settles O57: the other agents keep the flag or clear it, and the worker sets it only at `D_SUPP`. -/
theorem suppressionArmedOnlyForHeadset : Obligations.SuppressionArmedOnlyForHeadset := by
  intro s t hstep hs ht
  obtain ⟨_, u, hu, hmove⟩ := step_move hstep
  rw [← hu.ignoreNext] at hs
  rw [← hu.wpc, ← hu.loc]
  have hkept : t.ignoreNext ≠ u.ignoreNext := by simp [hs, ht]
  have hclear : t.ignoreNext ≠ false := by simp [ht]
  cases hmove with
  | word h => exact absurd h.ignoreNext hkept
  | event h => exact absurd h.ignoreNext hkept
  | quiet h => exact absurd h.ignoreNext hkept
  | isr h => exact h.ignoreNext.elim (absurd · hkept) (absurd · hclear)
  | host h => exact h.ignoreNext.elim (absurd · hkept) (absurd · hclear)
  | worker h => exact h.ignoreNext.resolve_left hkept

end Sys2Proof.Machine
end

section
/-! Every move keeps the control invariant (40_dispatcher.md R109; 44_lifecycle.md R227, R228). -/

namespace Sys2Proof.Machine

section
variable {s t : State}

theorem attached_iff : attached s = true ↔ s.mode = .active ∨ s.mode = .suspended := by
  cases h : s.mode <;> simp [attached, h]

theorem slotHeld_slotCancel (w : WorkSlot) : slotHeld (slotCancel w) = slotHeld w := by cases w <;> rfl

theorem slotHeld_slotSchedule (d : Nat) (w : WorkSlot) : slotHeld (slotSchedule d w).1 = slotHeld w := by
  cases w <;> rfl

theorem slotHeld_slotFinish (w : WorkSlot) : slotHeld (slotFinish w) = false := by cases w <;> rfl

/-- Where the worker runs, the block is attached. -/
theorem ControlInv.attached_of_running (h : ControlInv s) (hw : s.wpc ≠ .wIdle) : attached s = true := by
  cases ha : attached s with
  | true => rfl
  | false => exact absurd (h.quiet ha).1 hw

/-- In an attached block `st.jack` is written (R223). -/
theorem ControlInv.jack_of_attached (h : ControlInv s) (ha : attached s = true) : s.jack.isSome = true := by
  rcases attached_iff.mp ha with hm | hm <;> exact h.jackWritten (by simp [hm]) (by simp [hm])

/-- Where the worker runs, `st.jack` is written. -/
theorem ControlInv.jack_of_running (h : ControlInv s) (hw : s.wpc ≠ .wIdle) : s.jack.isSome = true :=
  h.jack_of_attached (h.attached_of_running hw)

/-- A move that leaves `wpc`, `mode`, `lpc` and `st.jack` alone keeps the invariant, if it does not take or
release the slot and, in a block that is not attached, leaves the slot and the handler alone too. -/
theorem ControlInv.of_fields (h : ControlInv s) (hwpc : t.wpc = s.wpc) (hmode : t.mode = s.mode)
    (hlpc : t.lpc = s.lpc) (hjack : t.jack = s.jack) (hslot : slotHeld t.slot = slotHeld s.slot)
    (hquiet : attached s = false → t.isr = s.isr ∧ t.slot = s.slot) : ControlInv t where
  singleFlight := by rw [hwpc, hslot]; exact h.singleFlight
  quiet ha := by
    have has : attached s = false := by rw [← ha]; simp only [attached, hmode]
    obtain ⟨hi, hs⟩ := hquiet has
    rw [hwpc, hi, hs]
    exact h.quiet has
  lifeMode := by rw [hlpc, hmode]; exact h.lifeMode
  jackWritten := by rw [hmode, hjack]; exact h.jackWritten

/-- In an attached block the invariant does not speak of the handler. -/
theorem ControlInv.of_attached (ha : attached s = true) (hf : s.wpc ≠ .wIdle ↔ slotHeld s.slot = true)
    (hl : lifeModeOk s.lpc s.mode = true) (hj : s.jack.isSome = true) : ControlInv s :=
  ⟨hf, fun hn => by simp [ha] at hn, hl, fun _ _ => hj⟩

theorem ControlInv.onlyPort (h : ControlInv s) (ht : OnlyPort s t) : ControlInv t :=
  h.of_fields ht.wpc ht.mode ht.lpc ht.jack (by rw [ht.slot]) fun _ => ⟨ht.isr, ht.slot⟩

theorem ControlInv.onlyModel (h : ControlInv s) (ht : OnlyModel s t) : ControlInv t :=
  h.of_fields ht.wpc ht.mode ht.lpc ht.jack (by rw [ht.slot]) fun _ => ⟨ht.isr, ht.slot⟩

theorem ControlInv.setLpc (h : ControlInv s) {p : LifePoint} (hp : lifeModeOk p s.mode = true) :
    ControlInv (setLpc p s) := ⟨h.singleFlight, h.quiet, hp, h.jackWritten⟩

theorem ControlInv.portCacheOnly (h : ControlInv s) (b : Bool) : ControlInv (portCacheOnly b s) :=
  ⟨h.singleFlight, h.quiet, h.lifeMode, h.jackWritten⟩

theorem ControlInv.cancel (h : ControlInv s) : ControlInv (cancel s) where
  singleFlight := by rw [cancel_wpc, cancel_slot, slotHeld_slotCancel]; exact h.singleFlight
  quiet ha := by
    obtain ⟨hw, hi, hs⟩ := h.quiet ha
    exact ⟨hw, hi, by rw [cancel_slot, hs]; rfl⟩
  lifeMode := h.lifeMode
  jackWritten := h.jackWritten

/-! ## Words, events and the handler -/

theorem WordMove.control (hm : WordMove s t) (h : ControlInv s) : ControlInv t := by
  cases hm <;> exact h.of_fields rfl rfl rfl rfl rfl fun _ => ⟨rfl, rfl⟩

theorem EventMove.control (hm : EventMove s t) (h : ControlInv s) : ControlInv t := by
  cases hm with
  | ignored => exact h
  | probe hmode hp => exact h.setLpc (by simp [lifeModeOk, hmode])
  | irq ha => exact .of_attached ha h.singleFlight h.lifeMode (h.jack_of_attached ha)
  | fire hs hp ha =>
    refine .of_attached (s := goto .wDispatch { s with slot := .running }) ha ?_ h.lifeMode
      (h.jack_of_attached ha)
    simp [slotHeld]
  | suspend hmode hp => exact h.setLpc (by simp [lifeModeOk, hmode])
  | resume hmode hp => exact h.setLpc (by simp [lifeModeOk, hmode])
  | remove ha hp => exact h.setLpc (by simpa [lifeModeOk] using attached_iff.mp ha)

/-- The handler runs only in an attached block. -/
theorem ControlInv.attached_of_isr (h : ControlInv s) (hi : s.isr ≠ .off) : attached s = true := by
  cases ha : attached s with
  | true => rfl
  | false =>
    obtain ⟨_, hoff, _⟩ := h.quiet ha
    exact absurd hoff hi

theorem IsrMove.control (hm : IsrMove s t) (h : ControlInv s) : ControlInv t := by
  by_cases hi : s.isr = .off
  · cases hm with
    | off => exact h
    | suppressed hp | read hp | mask1 hp | mask2 hp | sched hp => rw [hi] at hp; cases hp
  · have ha := h.attached_of_isr hi
    have hquiet (u : State) (hn : attached s = false) : u.isr = s.isr ∧ u.slot = s.slot := by
      rw [ha] at hn; cases hn
    cases hm with
    | off => exact h
    | suppressed | read => exact h.of_fields rfl rfl rfl rfl rfl (hquiet _)
    | mask1 | mask2 => exact h.of_fields (by simp) (by simp) (by simp) (by simp) (by simp) (hquiet _)
    | sched => exact h.of_fields rfl rfl rfl rfl (slotHeld_slotSchedule _ _) (hquiet _)

/-! ## The host -/

theorem HostMove.control (hm : HostMove s t) (h : ControlInv s) : ControlInv t := by
  have hlife := h.lifeMode
  cases hm with
  | idle | held => exact h
  | powerEnable hp | powerVoltage hp =>
    exact (h.onlyPort (powerCall_onlyPort _ _)).setLpc (by simpa [hp, lifeModeOk] using hlife)
  | identified hp hr =>
    rw [← (portRead_onlyPort hr).eq_portTo]
    exact (h.onlyPort (portRead_onlyPort hr)).setLpc
      (by simpa [hp, lifeModeOk, (portRead_onlyPort hr).mode] using hlife)
  | notIdentified hp hr =>
    have hmode : s.mode = .detached := by simpa [hp, lifeModeOk] using hlife
    exact ⟨h.singleFlight, fun _ => h.quiet (by simp [attached, hmode]), rfl, fun _ hf => absurd rfl hf⟩
  | init hp =>
    have hmode : s.mode = .detached := by simpa [hp, lifeModeOk] using hlife
    obtain ⟨hw, _, hs⟩ := h.quiet (by simp [attached, hmode])
    exact .of_attached rfl (by simp [hw, hs, slotSchedule, slotHeld]) rfl rfl
  | suspendCancel hp => exact h.cancel.setLpc (by simpa [hp, lifeModeOk] using hlife)
  | suspendHiz hp =>
    exact (h.onlyPort (portWrite_onlyPort _ _ _)).setLpc (by simpa [hp, lifeModeOk] using hlife)
  | suspendDisable hp =>
    exact (h.onlyPort (portUpdate_onlyPort _ _ _ _)).setLpc (by simpa [hp, lifeModeOk] using hlife)
  | suspended hp =>
    have hmode : s.mode = .active := by simpa [hp, lifeModeOk] using hlife
    exact .of_attached rfl h.singleFlight rfl (h.jack_of_attached (by simp [attached, hmode]))
  | resumeCache hp => exact (h.portCacheOnly false).setLpc (by simpa [hp, lifeModeOk] using hlife)
  | resync hp =>
    refine (h.onlyPort (portResync_onlyPort s)).setLpc ?_
    split <;> simpa [hp, lifeModeOk] using hlife
  | clockNone hp => exact h.setLpc (by simpa [hp, lifeModeOk] using hlife)
  | clock hp =>
    refine (h.onlyPort (portIssue_onlyPort _ s)).setLpc ?_
    split <;> simpa [hp, lifeModeOk] using hlife
  | resumed hp =>
    refine .of_attached rfl ?_ rfl rfl
    simpa [slotHeld_slotSchedule] using h.singleFlight
  | removeCancel hp => exact h.cancel.setLpc (by simpa [hp, lifeModeOk] using hlife)
  | removed hp hj =>
    obtain ⟨hw, hi⟩ : s.wpc = .wIdle ∧ s.isr = .off := by simpa [joinReady] using hj
    have ha : attached s = true := by simpa [hp, lifeModeOk, attached_iff] using hlife
    have hslot : slotJoin s.slot = .idle := by
      have hfree := mt h.singleFlight.mpr (not_not_intro hw)
      cases hs : s.slot <;> simp [hs, slotHeld, slotJoin] at hfree ⊢
    exact ⟨by simp [hw, hslot, slotHeld], fun _ => ⟨hw, hi, hslot⟩, rfl, fun _ _ => h.jack_of_attached ha⟩

/-! ## The worker -/

theorem WorkerMove.mode (hm : WorkerMove s t) : t.mode = s.mode := by cases hm <;> simp

theorem WorkerMove.lpc (hm : WorkerMove s t) : t.lpc = s.lpc := by cases hm <;> simp

/-- `W_IDLE` has no step: every other constructor starts at a label of its own. -/
theorem WorkerMove.eq_of_idle (hm : WorkerMove s t) (hw : s.wpc = .wIdle) : t = s := by
  cases hm with
  | idle => rfl
  | stuck hf => simp [ReadsUnwritten, hw] at hf
  | _ => simp_all

theorem ite_ne_idle {p : Prop} [Decidable p] {l m : Label} (hl : l ≠ .wIdle) (hm : m ≠ .wIdle) :
    (if p then l else m) ≠ .wIdle := by
  split
  · exact hl
  · exact hm

/-- The worker releases the slot exactly as it goes idle (R106). -/
theorem WorkerMove.slot (hm : WorkerMove s t) (hw : s.wpc ≠ .wIdle) :
    t.wpc ≠ .wIdle ∧ t.slot = s.slot ∨ t.wpc = .wIdle ∧ t.slot = slotFinish s.slot := by
  cases hm with
  | idle hpc => exact absurd hpc hw
  | finish => exact .inr ⟨rfl, rfl⟩
  | stuck => exact .inl ⟨by simpa using hw, by simp⟩
  | dispatch | start | hizPresent | hizAbsent | recheck | test | readS1 =>
    exact .inl ⟨ite_ne_idle (by simp) (by simp), by simp⟩
  | debounce => exact .inl ⟨ite_ne_idle (by simp) (ite_ne_idle (by simp) (by simp)), by simp⟩
  | _ => left; simp

theorem WorkerMove.control (hm : WorkerMove s t) (h : ControlInv s) : ControlInv t := by
  by_cases hw : s.wpc = .wIdle
  · rwa [hm.eq_of_idle hw]
  · have ha : attached t = true := by
      have := h.attached_of_running hw
      rwa [attached_iff, hm.mode, ← attached_iff]
    refine .of_attached ha ?_ (by rw [hm.lpc, hm.mode]; exact h.lifeMode) ?_
    · obtain ⟨hwt, hs⟩ | ⟨hwt, hs⟩ := hm.slot hw
      · rw [hs, ← h.singleFlight]; exact iff_of_true hwt hw
      · simp [hwt, hs, slotHeld_slotFinish]
    · obtain hj | ⟨_, hj⟩ := hm.jack
      · rw [hj]; exact h.jack_of_running hw
      · exact hj

/-- Every move of the machine keeps the control invariant. -/
theorem BlockMove.control (hm : BlockMove s t) (h : ControlInv s) : ControlInv t := by
  cases hm with
  | word hm => exact hm.control h
  | event hm => exact hm.control h
  | host hm => exact hm.control h
  | isr hm => exact hm.control h
  | worker hm => exact hm.control h
  | quiet hm => exact h.onlyModel hm

end

end Sys2Proof.Machine
end

section
/-! Every step keeps the run invariant (10_state.md R30, R31; 42_detection_sequencer.md R164, R180, R181;
41_jack_state_machine.md R137), and under it the only unwritten state read is the snapshot (R36). -/

namespace Sys2Proof.Machine

section
variable {s t : State}

/-! ## What a label's condition reads -/

theorem jackAbsent_iff : jackAbsent s = true ↔ s.jack = some .none ∨ s.jack = some .unknown := by
  simp [jackAbsent]

theorem attemptOk_iff {j : Nat} :
    attemptOk j s = true ↔ jackAbsent s = true ∧ s.loc.aborted = some false ∧ 1 ≤ j ∧
      ∃ r, s.retry = some r ∧ 1 ≤ r ∧ j + r = s.cfg.retryBudget + 1 := by
  cases hr : s.retry <;> simp [attemptOk, hr, and_assoc]

/-- The state of an attempt is four fields of the block's. -/
theorem attemptOk_congr {j : Nat} (hcfg : t.cfg = s.cfg) (hjack : t.jack = s.jack) (hretry : t.retry = s.retry)
    (haborted : t.loc.aborted = s.loc.aborted) : attemptOk j t = attemptOk j s := by
  simp only [attemptOk, jackAbsent, hcfg, hjack, hretry, haborted]

theorem attemptOk_portIssue (j : Nat) (op : StoreOp) (s : State) :
    attemptOk j (portIssue op s) = attemptOk j s :=
  attemptOk_congr (portIssue_cfg op s) (portIssue_jack op s) (portIssue_retry op s) (by rw [portIssue_loc])

theorem labelOk_dStart {j q : Nat} (hpc : s.wpc = .dStart j q) :
    labelOk s = true ↔ attemptOk j s = true ∧ 1 ≤ q ∧ q ≤ max 1 (testStart s.cfg).length := by
  simp only [labelOk, hpc, Bool.and_eq_true, decide_eq_true_eq, and_assoc]

theorem labelOk_dPoll {j i : Nat} (hpc : s.wpc = .dPoll j i) :
    labelOk s = true ↔ attemptOk j s = true ∧ 1 ≤ i ∧ i ≤ s.cfg.pollCap := by
  simp only [labelOk, hpc, Bool.and_eq_true, decide_eq_true_eq, and_assoc]

theorem labelOk_dResult {j : Nat} (hpc : s.wpc = .dResult j) :
    labelOk s = true ↔ attemptOk j s = true ∧ s.loc.timedOut.isSome = true := by
  simp only [labelOk, hpc, Bool.and_eq_true]

theorem labelOk_dRetry {j : Nat} (hpc : s.wpc = .dRetry j) :
    labelOk s = true ↔ attemptOk j s = true ∧ s.loc.timedOut.isSome = true ∧ s.det.isSome = true := by
  simp only [labelOk, hpc, Bool.and_eq_true, and_assoc]

theorem labelOk_dDeb {k : Nat} (hpc : s.wpc = .dDeb k) :
    labelOk s = true ↔ jackAbsent s = true ∧ s.loc.aborted = some false ∧
      s.retry = some s.cfg.retryBudget ∧ 1 ≤ k ∧ k ≤ s.cfg.debounceSamples := by
  simp only [labelOk, hpc, Bool.and_eq_true, decide_eq_true_eq, beq_iff_eq, and_assoc]

theorem labelOk_dForce (hpc : s.wpc = .dForce) :
    labelOk s = true ↔ jackAbsent s = true ∧ s.loc.aborted = some false ∧ s.det.isSome = true := by
  simp only [labelOk, hpc, Bool.and_eq_true, beq_iff_eq, and_assoc]

/-- Every local of `l` that a label's condition reads is still written in `m`, and `aborted` is the same. -/
structure LocalsKept (l m : Locals) : Prop where
  aborted   : m.aborted = l.aborted
  trip      : l.trip.isSome = true → m.trip.isSome = true
  timedOut  : l.timedOut.isSome = true → m.timedOut.isSome = true
  s0        : l.s0.isSome = true → m.s0.isSome = true
  s1        : l.s1.isSome = true → m.s1.isSome = true
  ks        : l.ks.isSome = true → m.ks.isSome = true
  newState  : l.newState.isSome = true → m.newState.isSome = true
  nextState : l.nextState.isSome = true → m.nextState.isSome = true

theorem LocalsKept.refl (l : Locals) : LocalsKept l l := ⟨rfl, id, id, id, id, id, id, id⟩

/-- `t` keeps what the worker's run rests on: nothing written is unwritten, and `st.jack` may only be set to
Unknown. -/
structure RunKept (s t : State) : Prop where
  wpc   : t.wpc = s.wpc
  cfg   : t.cfg = s.cfg
  retry : t.retry = s.retry
  jack  : t.jack = s.jack ∨ t.jack = some .unknown
  det   : s.det.isSome = true → t.det.isSome = true
  loc   : LocalsKept s.loc t.loc

/-- A move that writes no field the run rests on keeps it. -/
theorem RunKept.of_eq (hwpc : t.wpc = s.wpc := by simp) (hcfg : t.cfg = s.cfg := by simp)
    (hretry : t.retry = s.retry := by simp) (hjack : t.jack = s.jack := by simp)
    (hdet : t.det = s.det := by simp) (hloc : t.loc = s.loc := by simp) : RunKept s t :=
  ⟨hwpc, hcfg, hretry, .inl hjack, by rw [hdet]; exact id, by rw [hloc]; exact .refl _⟩

theorem RunKept.jackAbsent (h : RunKept s t) (ha : jackAbsent s = true) : jackAbsent t = true := by
  rw [jackAbsent_iff] at ha ⊢
  obtain hj | hj := h.jack
  · rwa [hj]
  · exact .inr hj

theorem RunKept.attemptOk {j : Nat} (h : RunKept s t) (ha : attemptOk j s = true) : attemptOk j t = true := by
  rw [attemptOk_iff] at ha ⊢
  rw [h.retry, h.cfg, h.loc.aborted]
  exact ha.imp_left h.jackAbsent

theorem RunKept.jack_ne_none (h : RunKept s t) (hj : s.jack ≠ some .none) : t.jack ≠ some .none := by
  obtain ht | ht := h.jack <;> simp [ht, hj]

/-- The condition of the worker's label outlives every move that keeps what the run rests on. -/
theorem RunKept.labelOk (h : RunKept s t) (hl : labelOk s = true) : labelOk t = true := by
  have habs := h.jackAbsent
  have hatt := fun j => h.attemptOk (j := j)
  have hne := h.jack_ne_none
  obtain ⟨hwpc, hcfg, hretry, -, hdet, haborted, htrip, htimed, h0, h1, hks, hnew, hnext⟩ := h
  unfold Machine.labelOk at hl ⊢
  rw [hwpc, hcfg, hretry, haborted]
  cases hpc : s.wpc
  case dReport =>
    simp only [hpc, Bool.and_eq_true, Bool.or_eq_true, beq_iff_eq] at hl ⊢
    exact hl.imp habs (Or.imp (And.imp_right htrip) (And.imp_right hdet))
  all_goals simp_all

/-! ## Words, events, the handler and the host -/

theorem labelOk_of_idle (h : s.wpc = .wIdle) : labelOk s = true := by simp [labelOk, h]

theorem OnlyModel.runKept (h : OnlyModel s t) : RunKept s t := .of_eq h.wpc h.cfg h.retry h.jack h.det h.loc

theorem WordMove.runKept (hm : WordMove s t) : RunKept s t := by
  cases hm with
  | port | cacheOnly => exact .of_eq
  | result => exact ⟨rfl, rfl, rfl, .inl rfl, fun _ => rfl, rfl, id, id, id, id, id, id, id⟩
  | classify => exact ⟨rfl, rfl, rfl, .inl rfl, id, rfl, fun _ => rfl, id, id, id, id, fun _ => rfl, id⟩
  | keyscan => exact ⟨rfl, rfl, rfl, .inl rfl, id, rfl, id, id, id, id, fun _ => rfl, id, id⟩
  | button | noButton => exact ⟨rfl, rfl, rfl, .inl rfl, id, rfl, id, id, id, id, id, id, id⟩

theorem EventMove.labelOk (hm : EventMove s t) (hl : labelOk s = true) : labelOk t = true := by
  cases hm with
  | ignored => exact hl
  | fire => rfl
  | probe | irq | suspend | resume | remove => exact RunKept.labelOk .of_eq hl

theorem IsrMove.runKept (hm : IsrMove s t) : RunKept s t := by
  cases hm <;> exact .of_eq

/-- The host steps beside a run only by writing `st.jack` as Unknown (R225); at attach no run exists. -/
theorem HostMove.labelOk (hm : HostMove s t) (h : ControlInv s) (hl : labelOk s = true) : labelOk t = true := by
  cases hm with
  | init hp =>
    have hmode : s.mode = .detached := by simpa [hp, lifeModeOk] using h.lifeMode
    exact labelOk_of_idle (h.quiet (by simp [attached, hmode])).1
  | resumed => exact RunKept.labelOk (s := s) ⟨rfl, rfl, rfl, .inr rfl, id, .refl _⟩ hl
  | _ => exact RunKept.labelOk .of_eq hl

/-! ## The worker -/

/-- The bounds of R7 that a run's indices rest on. -/
theorem cfgOk_bounds {c : Cfg} (h : cfgOk c = true) :
    1 ≤ c.retryBudget ∧ 1 ≤ c.pollCap ∧ 1 ≤ c.debounceSamples := by
  simp only [cfgOk, numbersOk, Bool.and_eq_true, decide_eq_true_eq] at h
  obtain ⟨⟨⟨_, ⟨⟨_, hb⟩, hp⟩, hd⟩, _⟩, _⟩ := h
  exact ⟨hb, hp, hd⟩

theorem jackAbsent_of_not_present {j : JackState} (hj : s.jack = some j) (hp : isPresent j = false) :
    jackAbsent s = true := by
  cases j <;> simp_all [isPresent, jackAbsent]

/-- A step with two targets meets the condition of the one it takes. -/
theorem labelOk_goto_ite {p : Prop} [Decidable p] {l m : Label} (hl : p → labelOk (goto l s) = true)
    (hm : ¬p → labelOk (goto m s) = true) : labelOk (goto (if p then l else m) s) = true := by
  split
  · next hp => exact hl hp
  · next hp => exact hm hp

/-- A step of the worker ends at a label whose condition holds. Most labels hand on what they rest on, or
write what the next one reads; the others are the branches and the loops over `k`, `q`, `i` and `j`. -/
theorem WorkerMove.labelOk (hm : WorkerMove s t) (hc : cfgOk s.cfg = true) (hl : labelOk s = true) :
    labelOk t = true := by
  obtain ⟨hb, hp, hd⟩ := cfgOk_bounds hc
  cases hm with
  | idle hpc => exact hl
  | stuck => exact RunKept.labelOk .of_eq hl
  | dispatch hpc hj =>
    refine labelOk_goto_ite (fun hp => ?_) fun hp => ?_
    · simp only [Machine.labelOk, goto_wpc, goto_jack, hj, bne_iff_ne]
      rintro ⟨⟩
      cases hp
    · exact jackAbsent_of_not_present (s := goto .dEntry s) hj (by simpa using hp)
  | entry hpc =>
    simp only [Machine.labelOk, hpc] at hl
    exact (labelOk_dDeb rfl).mpr ⟨hl, rfl, rfl, Nat.le_refl 1, hd⟩
  | debounce hpc hr =>
    obtain ⟨hj, ha, hretry, _, _⟩ := (labelOk_dDeb hpc).mp hl
    refine labelOk_goto_ite (fun _ => hj) fun _ => labelOk_goto_ite (fun hlt => ?_) fun _ => ?_
    · exact (labelOk_dDeb rfl).mpr ⟨hj, ha, hretry, Nat.le_add_left _ _, hlt⟩
    · refine (labelOk_dStart rfl).mpr ⟨?_, Nat.le_refl 1, Nat.le_max_left _ _⟩
      exact attemptOk_iff.mpr ⟨hj, ha, Nat.le_refl 1, _, hretry, hb, Nat.add_comm _ _⟩
  | startNone hpc =>
    obtain ⟨hatt, _⟩ := (labelOk_dStart hpc).mp hl
    exact (labelOk_dPoll rfl).mpr ⟨hatt, Nat.le_refl 1, hp⟩
  | @start j q op hpc =>
    obtain ⟨hatt, _⟩ := (labelOk_dStart hpc).mp hl
    rw [← attemptOk_portIssue j op s] at hatt
    refine labelOk_goto_ite (fun hlt => ?_) fun _ => ?_
    · refine (labelOk_dStart rfl).mpr ⟨hatt, Nat.le_add_left _ _, ?_⟩
      rw [goto_cfg, portIssue_cfg]
      exact Nat.le_trans hlt (Nat.le_max_right _ _)
    · refine (labelOk_dPoll rfl).mpr ⟨hatt, Nat.le_refl 1, ?_⟩
      rwa [goto_cfg, portIssue_cfg]
  | pollDone hpc | pollTimeout hpc =>
    obtain ⟨hatt, _⟩ := (labelOk_dPoll hpc).mp hl
    exact (labelOk_dResult rfl).mpr ⟨hatt, rfl⟩
  | pollAgain hpc hr hv hi =>
    obtain ⟨hatt, _⟩ := (labelOk_dPoll hpc).mp hl
    exact (labelOk_dPoll rfl).mpr ⟨hatt, Nat.le_add_left _ _, hi⟩
  | result hpc =>
    obtain ⟨hatt, htimed⟩ := (labelOk_dResult hpc).mp hl
    exact (labelOk_dRetry rfl).mpr ⟨hatt, htimed, rfl⟩
  | @retryAgain j r _ _ hpc ht hdet hfail hr hleft =>
    obtain ⟨hatt, _⟩ := (labelOk_dRetry hpc).mp hl
    obtain ⟨hj, ha, h1, r', hr', _, hsum⟩ := attemptOk_iff.mp hatt
    obtain rfl : r = r' := Option.some.inj (hr.symm.trans hr')
    refine (labelOk_dStart rfl).mpr ⟨?_, Nat.le_refl 1, Nat.le_max_left _ _⟩
    refine attemptOk_iff.mpr ⟨hj, ha, Nat.le_add_left _ _, r - 1, rfl, hleft, ?_⟩
    change j + 1 + (r - 1) = s.cfg.retryBudget + 1
    omega
  | retryExhausted hpc | retrySucceeded hpc =>
    obtain ⟨hatt, _, hdet⟩ := (labelOk_dRetry hpc).mp hl
    obtain ⟨hj, ha, _⟩ := attemptOk_iff.mp hatt
    exact (labelOk_dForce rfl).mpr ⟨hj, ha, hdet⟩
  | hizPresent | hizAbsent | recheck => exact labelOk_goto_ite (fun _ => rfl) fun _ => rfl
  | test hpc =>
    refine labelOk_goto_ite (fun _ => rfl) fun _ => ?_
    simp only [Machine.labelOk, hpc] at hl
    exact hl
  | readS1 hpc hs =>
    refine labelOk_goto_ite (fun _ => ?_) fun _ => ?_ <;>
      simp only [Machine.labelOk, goto_wpc, goto_loc, hs, Option.isSome_some, Bool.and_self]
  | reReport | reportNone | keyDecide | unrecognized | mask2 | finish => rfl
  | suppressHeadset hpc | suppressOther hpc | keyscan hpc =>
    simpa [Machine.labelOk, hpc] using hl
  | notPresent hpc | force hpc | override hpc | muteL hpc | muteR hpc | disable hpc =>
    simpa [Machine.labelOk, jackAbsent, hpc] using hl
  | enable hpc =>
    simp only [Machine.labelOk, hpc, Bool.and_eq_true, beq_iff_eq] at hl
    obtain ⟨⟨hj, ha⟩, hdet⟩ := hl
    simpa [Machine.labelOk, jackAbsent, ha, hdet] using hj
  | reportAborted hpc ha | reportDetected hpc ha => simp [Machine.labelOk, ha]
  | mask1 => simp [Machine.labelOk]

/-! ## The obligations -/

/-- Every move of the machine keeps the run invariant, where the configuration is one the model takes. -/
theorem BlockMove.runInv (hm : BlockMove s t) (hc : cfgOk s.cfg = true) (h : RunInv s) : RunInv t where
  control := hm.control h.control
  label := by
    cases hm with
    | word hm => exact hm.runKept.labelOk h.label
    | event hm => exact hm.labelOk h.label
    | host hm => exact hm.labelOk h.control h.label
    | isr hm => exact hm.runKept.labelOk h.label
    | worker hm => exact hm.labelOk hc h.label
    | quiet hm => exact hm.runKept.labelOk h.label

theorem OnlyModel.runInv (h : OnlyModel s t) (hs : RunInv s) : RunInv t :=
  ⟨hs.control.onlyModel h, h.runKept.labelOk hs.label⟩

/-- Under the run invariant the snapshot, at `E_TEST`, is all that a label may read unwritten: `st.jack` is
written while the worker runs, and the label's condition gives the rest. -/
theorem readsUnwritten_snap {f : ModelFault} (h : RunInv s) (hf : ReadsUnwritten s f) :
    s.wpc = .eTest ∧ s.snap = none ∧ f = .unwrittenState .snap := by
  have hl := h.label
  have hjack : s.wpc ≠ .wIdle → s.jack ≠ none := fun hw => by
    simpa [Option.isSome_iff_ne_none] using h.control.jack_of_running hw
  unfold labelOk at hl
  unfold ReadsUnwritten at hf
  cases hpc : s.wpc <;> simp only [hpc] at hf hl
  case eTest => exact ⟨rfl, hf⟩
  case wDispatch | dReReport | eReportNone | rMask1 => exact absurd hf.1 (hjack (by simp [hpc]))
  case dForce | dSupp | eReadS1 | rMask2 => simp [hf.1] at hl
  case dRetry | dReport | dHiz | eKeyDecide | eUnrecognized =>
    have hj := hjack (by simp [hpc])
    simp only [Bool.and_eq_true, Bool.or_eq_true, beq_iff_eq] at hl
    grind [attemptOk_iff]

end

/-- Settles O51: each agent's moves keep the control invariant and the condition of the worker's label. -/
theorem runInvariantKept : Obligations.RunInvariantKept := by
  intro s t hs hstep
  obtain ⟨hc, u, hu, hmove⟩ := step_move hstep
  exact hmove.runInv (by rw [hu.cfg]; exact hc) (hu.runInv hs)

/-- Settles O52: only the worker records faults, where its label reads something unwritten; under the run
invariant that is the snapshot. -/
theorem onlyTheSnapshotFaults : Obligations.OnlyTheSnapshotFaults := by
  intro s t hs hstep hne
  obtain ⟨_, u, hu, hmove⟩ := step_move hstep
  rw [← hu.faults] at hne ⊢
  rw [← hu.wpc, ← hu.snap]
  cases hmove with
  | word h => exact absurd h.faults hne
  | event h => exact absurd h.faults hne
  | host h => exact absurd h.faults hne
  | isr h => exact absurd h.faults hne
  | quiet h => exact absurd h.faults hne
  | worker h =>
    obtain h | ⟨f, hf, rfl⟩ := h.faults
    · exact absurd h hne
    · obtain ⟨hpc, hsnap, rfl⟩ := readsUnwritten_snap (hu.runInv hs) hf
      rw [recordFault_eq] at hne ⊢
      exact ⟨hpc, hsnap, if_neg fun hmem => hne (if_pos hmem)⟩

end Sys2Proof.Machine
end

section
/-! The register port (20_memory.md R52 to R58): what a read, a store and a resync do to both copies of the
codec's registers. Each primitive is inverted once; the statements about the `PORT` rows follow. -/

namespace Sys2Proof.Machine

/-! ## Setting bits at one address -/

/-- `q` is `r` in which at most bits of `a` are set anew. -/
def RegFile.SetAt (a : Byte) (r q : RegFile) : Prop := q = r ∨ ∃ m v, q = RegFile.setBits r a m v

section
variable {a b : Byte} {r q : RegFile}

theorem RegFile.SetAt.of_ite {p : Prop} [Decidable p] {m v : Byte} :
    RegFile.SetAt a r (if p then RegFile.setBits r a m v else r) := by
  by_cases hp : p
  · exact .inr ⟨m, v, if_pos hp⟩
  · exact .inl (if_neg hp)

theorem RegFile.SetAt.wf (h : RegFile.SetAt a r q) (hr : RegFile.wf r = true) : RegFile.wf q = true := by
  obtain rfl | ⟨m, v, rfl⟩ := h
  · exact hr
  · exact RegFile.wf_setBits hr a m v

theorem RegFile.SetAt.mask_ne (h : RegFile.SetAt a r q) (hr : RegFile.wf r = true) (hb : b ≠ a) :
    RegFile.mask q b = RegFile.mask r b := by
  obtain rfl | ⟨m, v, rfl⟩ := h
  · rfl
  · rw [RegFile.mask_setBits ((RegFile.wf_iff r).mp hr), if_neg hb.symm]

theorem RegFile.SetAt.bits_ne (h : RegFile.SetAt a r q) (hr : RegFile.wf r = true) (hb : b ≠ a) :
    RegFile.bits q b = RegFile.bits r b := by
  obtain rfl | ⟨m, v, rfl⟩ := h
  · rfl
  · rw [RegFile.bits_setBits ((RegFile.wf_iff r).mp hr), if_neg hb.symm]

end

/-- Copying a register's known bits from another register file: each known bit is taken, the others stay. -/
theorem RegFile.bit_setBits_known {r : RegFile} (hr : RegFile.wf r = true) (q : RegFile) (a b : Byte) (i : Fin 8) :
    RegFile.bit (RegFile.setBits r a (RegFile.mask q a) (RegFile.bits q a)) b i =
      if a = b then (RegFile.bit q b i).or (RegFile.bit r b i) else RegFile.bit r b i := by
  rw [RegFile.bit_setBits hr]
  by_cases hab : a = b
  · subst hab
    cases hm : (RegFile.mask q a).getLsbD i <;> simp only [RegFile.bit, hm] <;> simp
  · simp [hab]

/-! ## One access of the port -/

/-- `t` is `s` after one read or store of `a`: nothing but the port's part changes, entries are appended to the
trace, both copies are set at `a` at most, and no shadow is kept of a volatile register (R51). -/
structure PortAccess (a : Byte) (s t : State) : Prop where
  onlyPort : OnlyPort s t
  trace    : s.trace <+: t.trace
  hw       : RegFile.SetAt a s.hw t.hw
  shadow   : RegFile.SetAt a s.shadow t.shadow
  volatile : isVolatile s.cfg a = true → t.shadow = s.shadow

theorem AppendsNoReport.trace_isPrefix {s t : State} (h : AppendsNoReport s t) : s.trace <+: t.trace := by
  obtain ⟨l, hl, _⟩ := h
  exact ⟨l, hl.symm⟩

theorem portStore_access (op : PortOp) (a m v : Byte) (s : State) : PortAccess a s (portStore op a m v s) := by
  have honly := portStore_onlyPort op a m v s
  have htrace := (portStore_appends op a m v s).trace_isPrefix
  obtain ⟨_, h⟩ | ⟨_, ok, took, e, d, _, h⟩ := portStore_spec op a m v s <;> rw [h] at honly htrace ⊢
  · exact ⟨honly, htrace, .inl rfl, by rw [← ite_not]; exact .of_ite, fun hv => if_pos hv⟩
  · exact ⟨honly, htrace, .of_ite, .of_ite, fun hv => by simp [hv]⟩

/-- A read leaves the codec's registers alone (R52). -/
theorem portRead_hw {a v : Byte} {ok : Bool} {s t : State} (h : portRead a s = some (ok, v, t)) : t.hw = s.hw := by
  obtain ⟨_, _, hr⟩ | ⟨_, _, _, hr⟩ | ⟨_, _, _, _, _, hr⟩ | ⟨_, _, _, _, _, _, _, hr⟩ := portRead_spec a s <;>
    rw [hr] at h <;> cases h <;> rfl

theorem portRead_access {a v : Byte} {ok : Bool} {s t : State} (h : portRead a s = some (ok, v, t)) :
    PortAccess a s t := by
  have honly := portRead_onlyPort h
  have htrace := (portRead_appends h).trace_isPrefix
  have hhw : RegFile.SetAt a s.hw t.hw := .inl (portRead_hw h)
  obtain ⟨_, _, hr⟩ | ⟨_, _, _, hr⟩ | ⟨_, _, _, _, _, hr⟩ | ⟨_, _, _, _, _, _, _, hr⟩ := portRead_spec a s <;>
    rw [hr] at h <;> cases h
  · exact ⟨honly, htrace, hhw, .inl rfl, fun _ => rfl⟩
  · exact ⟨honly, htrace, hhw, .inl rfl, fun _ => rfl⟩
  · exact ⟨honly, htrace, hhw, .of_ite, fun hv => by simp [hv]⟩

theorem execRead_next {a : Byte} {s t : State} (h : execRead a s = .next t) :
    ∃ ok v, portRead a s = some (ok, v, t) := by
  unfold execRead at h
  split at h
  · next ok v u hr => cases h; exact ⟨ok, v, hr⟩
  · cases h

theorem execRead_of_portRead {a v : Byte} {ok : Bool} {s t : State} (h : portRead a s = some (ok, v, t)) :
    execRead a s = .next t := by
  simp only [execRead, h]

/-! ## When a read is answered -/

/-- The port's cache answers exactly where the statements say so (R52). -/
theorem cachedByte_eq_some {a v : Byte} {s : State} : cachedByte s a = some v ↔ Cached a v s := by
  unfold cachedByte Cached
  cases isVolatile s.cfg a <;> simp

theorem cachedByte_eq_none {a : Byte} {s : State} : cachedByte s a = none ↔ ∀ v, ¬Cached a v s := by
  simp only [← cachedByte_eq_some, Option.eq_none_iff_forall_ne_some, ne_eq]

/-- With an answer ready the environment is not out of answers. -/
theorem AnswerReady.not_empty {a : Byte} {s : State} (h : AnswerReady a s) :
    ¬(s.env.scripted = true ∧ takeAnswer a s.env.reads = none) := by
  rintro ⟨hs, hnone⟩
  obtain hn | hq := h
  · rw [hs] at hn; cases hn
  · obtain ⟨p, hp⟩ := takeAnswer_isSome hq
    rw [hnone] at hp; cases hp

/-! ## Resync -/

/-- One bus write of a resync: a volatile register has none; a non-volatile one's known shadow bits go to the
codec if the write succeeds or took effect (R58). -/
theorem resyncCell_cases (acc : Bool × State) (c : Host.Cell) :
    (isVolatile acc.2.cfg (BitVec.ofNat 8 c.1) = true ∧ resyncCell acc c = acc) ∨
    (isVolatile acc.2.cfg (BitVec.ofNat 8 c.1) = false ∧ ∃ ok taken e d,
      (acc.2.cfg.ioFail = false → ok = true) ∧ resyncCell acc c = (acc.1 && ok,
        { acc.2 with
          hw := if ok || taken then RegFile.setBits acc.2.hw (BitVec.ofNat 8 c.1)
              (RegFile.mask acc.2.shadow (BitVec.ofNat 8 c.1)) (RegFile.bits acc.2.shadow (BitVec.ofNat 8 c.1))
            else acc.2.hw
          env := e
          draws := d })) := by
  obtain ⟨b, s⟩ := acc
  cases hv : isVolatile s.cfg (BitVec.ofNat 8 c.1) with
  | true => exact .inl ⟨rfl, by simp [resyncCell, hv]⟩
  | false =>
    obtain ⟨ok, taken, e, d, hw, hok⟩ := writeAnswer_spec (BitVec.ofNat 8 c.1) s
    refine .inr ⟨rfl, ok, taken, e, d, hok, ?_⟩
    simp only [resyncCell, hv, hw, codecBits]
    cases ok <;> cases taken <;> simp

/-- `r` is `acc` after bus writes of a resync to the addresses of `cs`, in any order and number. -/
structure Resynced (cs : List Host.Cell) (acc r : Bool × State) : Prop where
  same     : ∃ h e d, r.2 = { acc.2 with hw := h, env := e, draws := d }
  ok       : acc.2.cfg.ioFail = false → r.1 = acc.1
  failed   : acc.1 = false → r.1 = false
  volatile : ∀ a, isVolatile acc.2.cfg a = true → ∀ i, RegFile.bit r.2.hw a i = RegFile.bit acc.2.hw a i
  taken    : ∀ a, isVolatile acc.2.cfg a = false →
    (∀ i, RegFile.bit r.2.hw a i = (RegFile.bit acc.2.shadow a i).or (RegFile.bit acc.2.hw a i)) ∨
    (((∃ c ∈ cs, BitVec.ofNat 8 c.1 = a) → r.1 = false) ∧
      ∀ i, RegFile.bit r.2.hw a i = RegFile.bit acc.2.hw a i)

theorem Resynced.refl (acc : Bool × State) : Resynced [] acc acc where
  same := ⟨acc.2.hw, acc.2.env, acc.2.draws, rfl⟩
  ok _ := rfl
  failed h := h
  volatile _ _ _ := rfl
  taken _ _ := .inr ⟨by simp, fun _ => rfl⟩

theorem resyncCell_resynced {acc : Bool × State} (hw : RegFile.wf acc.2.hw = true) (c : Host.Cell) :
    Resynced [c] acc (resyncCell acc c) := by
  obtain ⟨hv, h⟩ | ⟨hv, ok, took, e, d, hok, h⟩ := resyncCell_cases acc c <;> rw [h]
  · refine { Resynced.refl acc with taken := fun a ha => .inr ⟨?_, fun _ => rfl⟩ }
    rintro ⟨c', hc', rfl⟩
    rw [List.mem_singleton.mp hc', hv] at ha
    cases ha
  · refine ⟨⟨_, e, d, rfl⟩, fun hf => by simp [hok hf], fun hf => by simp [hf], fun a ha i => ?_, fun a ha => ?_⟩
    · have hne : ¬BitVec.ofNat 8 c.1 = a := by rintro rfl; rw [hv] at ha; cases ha
      split
      · rw [RegFile.bit_setBits_known hw, if_neg hne]
      · rfl
    · by_cases hca : BitVec.ofNat 8 c.1 = a
      · cases hb : ok || took with
        | true => exact .inl fun i => by simp [RegFile.bit_setBits_known hw, hca]
        | false => exact .inr ⟨fun _ => by simp [(Bool.or_eq_false_iff.mp hb).1], fun i => by simp⟩
      · refine .inr ⟨fun ⟨c', hc', ha'⟩ => absurd (List.mem_singleton.mp hc' ▸ ha') hca, fun i => ?_⟩
        split
        · rw [RegFile.bit_setBits_known hw, if_neg hca]
        · rfl

/-- A register that took its known shadow bits keeps them in a later write; one that failed stays failed. -/
theorem Resynced.trans {cs ds : List Host.Cell} {acc r q : Bool × State} (h : Resynced cs acc r)
    (k : Resynced ds r q) : Resynced (cs ++ ds) acc q := by
  obtain ⟨hw, e, d, hr⟩ := h.same
  obtain ⟨hw', e', d', hq⟩ := k.same
  have hcfg : r.2.cfg = acc.2.cfg := by rw [hr]
  have hsh : r.2.shadow = acc.2.shadow := by rw [hr]
  refine ⟨⟨hw', e', d', by rw [hq, hr]⟩, fun hf => ?_, fun hf => k.failed (h.failed hf), fun a ha i => ?_,
    fun a ha => ?_⟩
  · rw [k.ok (hcfg ▸ hf), h.ok hf]
  · rw [k.volatile a (hcfg ▸ ha), h.volatile a ha]
  · have hk := k.taken a (hcfg ▸ ha)
    rw [hsh] at hk
    obtain ht | ⟨hf, hs⟩ := h.taken a ha
    · refine .inl fun i => ?_
      obtain ht' | ⟨_, hs'⟩ := hk
      · rw [ht' i, ht i, ← Option.or_assoc, Option.or_self]
      · rw [hs' i, ht i]
    · obtain ht' | ⟨hf', hs'⟩ := hk
      · exact .inl fun i => by rw [ht' i, hs i]
      · refine .inr ⟨?_, fun i => by rw [hs' i, hs i]⟩
        rintro ⟨c, hc, hca⟩
        obtain hc | hc := List.mem_append.mp hc
        · exact k.failed (hf ⟨c, hc, hca⟩)
        · exact hf' ⟨c, hc, hca⟩

theorem resyncFold_resynced (cs : List Host.Cell) {acc : Bool × State} (hw : RegFile.wf acc.2.hw = true) :
    Resynced cs acc (cs.foldl resyncCell acc) := by
  induction cs generalizing acc with
  | nil => exact .refl acc
  | cons c cs ih => exact (resyncCell_resynced hw c).trans (ih (resyncCell_wf hw))

/-- A resync is the writes of its registers, then its record (R58). -/
theorem portResync_eq {s : State} {r : Bool × State} (h : s.shadow.known.foldl resyncCell (true, s) = r) :
    portResync s = { r.2 with
      trace := r.2.trace ++ (.port .resync r.1 none :: if r.1 then [] else [.log (.ioError 0x00)]) } := by
  obtain ⟨ok, t⟩ := r
  simp [portResync, h, logIo_eq, emit]

/-- A register with a known bit has a cell among the known masks. -/
theorem RegFile.known_cell {r : RegFile} {a : Byte} {i : Fin 8} {b : Bool} (h : RegFile.bit r a i = some b) :
    ∃ c ∈ r.known, BitVec.ofNat 8 c.1 = a := by
  refine ⟨_, Memory.mem_of_read (a := a.toNat) fun hz => ?_, by simp⟩
  simp [RegFile.bit, RegFile.mask, hz, Memory.unlisted] at h

/-! ## The obligations -/

/-- Settles O15: `portCacheOnly` written out. -/
theorem cacheOnlyResult : Obligations.CacheOnlyResult :=
  fun b s => congrArg Host.Outcome.next (portCacheOnly_eq b s)

/-- Settles O10: the branches of `portRead_spec`, chosen by what the cache holds and by the mode. -/
theorem readResult : Obligations.ReadResult := by
  intro a s
  refine ⟨fun v hv => ?_, fun hc hr hm => ?_, fun hc hr hm => ?_⟩
  · rw [← cachedByte_eq_some] at hv
    obtain ⟨w, hw, h⟩ | ⟨hn, _⟩ | ⟨hn, _⟩ | ⟨hn, _⟩ := portRead_spec a s
    · obtain rfl : w = v := Option.some_inj.mp (hw.symm.trans hv)
      exact ⟨_, h, execRead_of_portRead h, rfl⟩
    all_goals rw [hn] at hv; cases hv
  · rw [← cachedByte_eq_none] at hc
    obtain ⟨w, hw, _⟩ | ⟨_, hs, hq, _⟩ | ⟨_, _, v, e, d, h⟩ | ⟨_, hf, _⟩ := portRead_spec a s
    · rw [hc] at hw; cases hw
    · exact absurd ⟨hs, hq⟩ hr.not_empty
    · exact ⟨v, _, h, execRead_of_portRead h, rfl⟩
    · rw [hm] at hf; cases hf
  · rw [← cachedByte_eq_none] at hc
    obtain ⟨w, hw, _⟩ | ⟨_, hs, hq, _⟩ | ⟨_, ht, _⟩ | ⟨_, _, ok, v, e, d, hok, h⟩ := portRead_spec a s
    · rw [hc] at hw; cases hw
    · exact absurd ⟨hs, hq⟩ hr.not_empty
    · rw [hm] at ht; cases ht
    · exact ⟨ok, v, _, h, execRead_of_portRead h, hok, by simp⟩

/-- Settles O12: the two branches of `portStore_spec` under the mask 0xFF. -/
theorem writeResult : Obligations.WriteResult := by
  intro a v s
  have hexec : exec (.write a v) s = .next (portWrite a v s) := rfl
  refine ⟨hexec, fun hm => ?_, fun hm => ?_⟩ <;> rw [hexec, portWrite] <;>
    obtain ⟨hc, h⟩ | ⟨hc, ok, took, e, d, hok, h⟩ := portStore_spec (.write a v) a 0xFF v s
  · rw [h]
  · rw [hm] at hc; cases hc
  · rw [hm] at hc; cases hc
  · exact ⟨ok, took, e, d, hok, by rw [h]; simp⟩

/-- Settles O13: `bit_setBits` in both copies, in each branch of `portStore_spec`. -/
theorem updateResult : Obligations.UpdateResult := by
  intro a m v s hw hs
  obtain ⟨hc, h⟩ | ⟨hc, ok, took, e, d, hok, h⟩ := portStore_spec (.update a m v) a m v s
  · refine ⟨true, true, _, rfl, rfl, fun _ => rfl, portUpdate_onlyPort a m v s, ?_⟩
    rw [portUpdate, h]
    refine ⟨by simp [hc], fun b i => by simp [hc], fun b i => ?_⟩
    cases hv : isVolatile s.cfg a <;> simp [RegFile.bit_setBits hs, eq_comm (a := b)]
  · refine ⟨ok, took, _, rfl, rfl, fun hf => hok (hf.resolve_left (by simp [hc])), portUpdate_onlyPort a m v s, ?_⟩
    rw [portUpdate, h]
    refine ⟨by simp [hc], fun b i => ?_, fun b i => ?_⟩
    · cases ok <;> cases took <;> simp [hc, RegFile.bit_setBits hw, eq_comm (a := b)]
    · cases ok <;> cases hv : isVolatile s.cfg a <;> simp [RegFile.bit_setBits hs, eq_comm (a := b)]

/-- Settles O14: each of the three is one access of its address. -/
theorem portFrame : Obligations.PortFrame := by
  intro i a s t hi hw hs h
  have frame (hacc : PortAccess a s t) (hread : i = .read a → t.hw = s.hw) :=
    And.intro hacc.onlyPort <| And.intro hread <| And.intro
      (fun b (hb : b ≠ a) => And.intro (hacc.hw.mask_ne hw hb) (hacc.hw.bits_ne hw hb))
      (fun b (hb : b ≠ a) => And.intro (hacc.shadow.mask_ne hs hb) (hacc.shadow.bits_ne hs hb))
  obtain rfl | ⟨v, rfl⟩ | ⟨m, v, rfl⟩ := hi
  · obtain ⟨ok, v, hr⟩ := execRead_next h
    exact frame (portRead_access hr) fun _ => portRead_hw hr
  · cases h
    exact frame (portStore_access _ a 0xFF v s) nofun
  · cases h
    exact frame (portStore_access _ a m v s) nofun

/-- Settles O16: `Resynced` of the fold over the registers with a known shadow bit; a register that is not
among them has no bit to take. -/
theorem resyncResult : Obligations.ResyncResult := by
  intro s hw _
  have hres := resyncFold_resynced s.shadow.known (acc := (true, s)) hw
  generalize hr : s.shadow.known.foldl resyncCell (true, s) = r at hres
  obtain ⟨h, e, d, hsame⟩ := hres.same
  have heq := portResync_eq hr
  refine ⟨r.1, portResync s, rfl, rfl, hres.ok, ?_, ?_, ?_, fun a ha => ?_⟩ <;> rw [heq]
  · simp [hsame]
  · simp [hsame]
  · exact hres.volatile
  · obtain ht | ⟨hf, hs⟩ := hres.taken a ha
    · exact .inl ht
    · by_cases hcell : ∃ c ∈ s.shadow.known, BitVec.ofNat 8 c.1 = a
      · exact .inr ⟨hf hcell, hs⟩
      · refine .inl fun i => ?_
        have hnone : RegFile.bit s.shadow a i = none :=
          Option.eq_none_iff_forall_ne_some.mpr fun b hb => hcell (RegFile.known_cell hb)
        rw [hs i, hnone, Option.none_or]

end Sys2Proof.Machine
end

section
/-! What every step keeps (20_memory.md R51, R68; 10_state.md R34, R36): the configuration, the trace and the
faults so far, the canonical form of both register copies, and that no shadow is kept of a volatile register. -/

namespace Sys2Proof.Machine

/-! ## The relation -/

/-- `t` keeps what every step keeps of `s`. -/
structure Kept (s t : State) : Prop where
  cfg      : t.cfg = s.cfg
  source   : t.source = s.source
  trace    : s.trace <+: t.trace
  faults   : s.faults <+: t.faults
  wf       : regFilesWf s = true → regFilesWf t = true
  noShadow : regFilesWf s = true → NoVolatileShadow s → NoVolatileShadow t

/-- An update of other fields than those `Kept` speaks of. -/
theorem Kept.of_eq {s t : State} (cfg : t.cfg = s.cfg := by rfl) (source : t.source = s.source := by rfl)
    (trace : t.trace = s.trace := by rfl) (faults : t.faults = s.faults := by rfl)
    (hw : t.hw = s.hw := by rfl) (shadow : t.shadow = s.shadow := by rfl) : Kept s t where
  cfg := cfg
  source := source
  trace := trace ▸ List.prefix_rfl
  faults := faults ▸ List.prefix_rfl
  wf h := by rwa [regFilesWf, hw, shadow]
  noShadow _ h := by rwa [NoVolatileShadow, cfg, shadow]

theorem Kept.trans {s t u : State} (h : Kept s t) (k : Kept t u) : Kept s u where
  cfg := k.cfg.trans h.cfg
  source := k.source.trans h.source
  trace := h.trace.trans k.trace
  faults := h.faults.trans k.faults
  wf hs := k.wf (h.wf hs)
  noShadow hs hn := k.noShadow (h.wf hs) (h.noShadow hs hn)

theorem regFilesWf_iff {s : State} : regFilesWf s = true ↔ RegFile.wf s.hw = true ∧ RegFile.wf s.shadow = true :=
  Bool.and_eq_true _ _ ▸ Iff.rfl

/-! ## The shared operations -/

/-- An access sets no bit at a volatile register's shadow, neither its own nor another's. -/
theorem PortAccess.kept {a : Byte} {s t : State} (h : PortAccess a s t) : Kept s t where
  cfg := h.onlyPort.cfg
  source := h.onlyPort.source
  trace := h.trace
  faults := h.onlyPort.faults ▸ List.prefix_rfl
  wf hs := by
    obtain ⟨hw, hsh⟩ := regFilesWf_iff.mp hs
    exact regFilesWf_iff.mpr ⟨h.hw.wf hw, h.shadow.wf hsh⟩
  noShadow hs hn b hb := by
    rw [h.onlyPort.cfg] at hb
    by_cases hba : b = a
    · rw [h.volatile (hba ▸ hb)]
      exact hn b hb
    · rw [h.shadow.mask_ne (regFilesWf_iff.mp hs).2 hba]
      exact hn b hb

theorem portWrite_kept (a v : Byte) (s : State) : Kept s (portWrite a v s) := (portStore_access _ _ _ _ s).kept

theorem portUpdate_kept (a m v : Byte) (s : State) : Kept s (portUpdate a m v s) := (portStore_access _ _ _ _ s).kept

theorem portIssue_kept (op : StoreOp) (s : State) : Kept s (portIssue op s) := by
  cases op <;> exact (portStore_access _ _ _ _ s).kept

theorem portRead_kept {a v : Byte} {ok : Bool} {s u : State} (h : portRead a s = some (ok, v, u)) :
    Kept s (portTo u s) :=
  (portRead_onlyPort h).eq_portTo ▸ (portRead_access h).kept

theorem portResync_kept (s : State) : Kept s (portResync s) where
  cfg := portResync_cfg s
  source := portResync_source s
  trace := (portResync_appends s).trace_isPrefix
  faults := portResync_faults s ▸ List.prefix_rfl
  wf hs := by
    obtain ⟨hw, hsh⟩ := regFilesWf_iff.mp hs
    exact regFilesWf_iff.mpr (portResync_wf hw hsh)
  noShadow _ hn := by
    obtain ⟨_, _, _, _, h⟩ := portResync_spec s
    rw [h]
    exact hn

/-- Appending to the trace or to the fault list, where nothing else changes that `Kept` speaks of. -/
theorem Kept.of_append {s t : State} (trace : ∃ l, t.trace = s.trace ++ l) (cfg : t.cfg = s.cfg := by rfl)
    (source : t.source = s.source := by rfl) (faults : t.faults = s.faults := by rfl)
    (hw : t.hw = s.hw := by rfl) (shadow : t.shadow = s.shadow := by rfl) : Kept s t := by
  obtain ⟨l, hl⟩ := trace
  have h : Kept { s with trace := t.trace } t := .of_eq cfg source rfl faults hw shadow
  exact { h with trace := ⟨l, hl.symm⟩ }

theorem emit_kept (e : TraceEvent) (s : State) : Kept s (emit e s) := .of_append ⟨_, rfl⟩

theorem Kept.then_emit {e : TraceEvent} {s t : State} (h : Kept s t) : Kept s (emit e t) := h.trans (emit_kept e t)

theorem Kept.then_goto {l : Label} {s t : State} (h : Kept s t) : Kept s (goto l t) := h.trans .of_eq

theorem Kept.then_isr {p : IsrPoint} {s t : State} (h : Kept s t) : Kept s (setIsr p t) := h.trans .of_eq

theorem Kept.then_lpc {p : LifePoint} {s t : State} (h : Kept s t) : Kept s (setLpc p t) := h.trans .of_eq

theorem portCacheOnly_kept (b : Bool) (s : State) : Kept s (portCacheOnly b s) := .of_append ⟨_, rfl⟩

theorem schedule_kept (d : Nat) (s : State) : Kept s (schedule d s) := .of_append ⟨_, rfl⟩

theorem powerCall_kept (c : PowerCall) (s : State) : Kept s (powerCall c s) := by
  obtain ⟨ok, e, d, h⟩ := powerCall_spec c s
  rw [h]
  exact .of_append ⟨_, rfl⟩

theorem reportState_kept (j n : JackState) (s : State) : Kept s (reportState j n s) := by
  rw [reportState_eq]
  exact .of_append ⟨_, rfl⟩

theorem reportClass_kept (j : JackState) (t : Triplet) (s : State) : Kept s (reportClass j t s) :=
  Kept.trans .of_eq (reportState_kept j _ _)

theorem keyDecode_kept (s0 s1 ks : Byte) (s : State) : Kept s (keyDecode s0 s1 ks s) := by
  unfold keyDecode
  split
  · dsimp only
    split <;> exact .of_append ⟨_, rfl⟩
  · exact emit_kept _ s

theorem recordFault_kept (f : ModelFault) (s : State) : Kept s (recordFault f s) where
  cfg := recordFault_cfg f s
  source := recordFault_source f s
  trace := recordFault_trace f s ▸ List.prefix_rfl
  faults := by rw [recordFault_eq]; dsimp only; split <;> simp
  wf hs := by rwa [regFilesWf, recordFault_hw, recordFault_shadow]
  noShadow _ hn := by rwa [NoVolatileShadow, recordFault_cfg, recordFault_shadow]

/-! ## The agents -/

section
variable {s t : State}

theorem OnlyModel.kept (h : OnlyModel s t) : Kept s t :=
  .of_eq h.cfg h.source h.trace h.faults h.hw h.shadow

theorem EventMove.kept (h : EventMove s t) : Kept s t := by cases h <;> exact .of_eq

/-- Of the instructions the port's rows, the reports and `btnNone` append to the trace, and the port's set
registers. -/
theorem exec_kept {i : Instr} (h : exec i s = .next t) : Kept s t := by
  cases i with
  | evProbe => exact (exec_event_move (e := .probe) h).kept
  | evIrq => exact (exec_event_move (e := .irq) h).kept
  | evFire => exact (exec_event_move (e := .fire) h).kept
  | evSuspend => exact (exec_event_move (e := .suspend) h).kept
  | evResume => exact (exec_event_move (e := .resume) h).kept
  | evRemove => exact (exec_event_move (e := .remove) h).kept
  | read a =>
    obtain ⟨ok, v, hr⟩ := execRead_next h
    exact (portRead_access hr).kept
  | write a v => cases h; exact portWrite_kept a v s
  | update a m v => cases h; exact portUpdate_kept a m v s
  | cacheOnly b => cases h; exact portCacheOnly_kept b s
  | resync => cases h; exact portResync_kept s
  | repJack | repButton | repRelease => cases h; exact emit_kept _ s
  | btnNone => cases h; exact .then_emit .of_eq
  | _ => cases h; exact .of_eq

theorem IsrMove.kept (h : IsrMove s t) : Kept s t := by
  cases h with
  | off => exact .of_eq
  | suppressed _ hr => exact .then_isr (.then_emit ((portRead_kept hr).trans .of_eq))
  | read _ hr => exact .then_isr ((portRead_kept hr).trans .of_eq)
  | mask1 | mask2 => exact .then_isr (portWrite_kept _ _ s)
  | sched => exact .then_isr (schedule_kept _ s)

theorem HostMove.kept (h : HostMove s t) : Kept s t := by
  cases h with
  | powerEnable | powerVoltage => exact .then_lpc (powerCall_kept _ s)
  | identified _ hr => exact .then_lpc (portRead_kept hr)
  | notIdentified _ hr => exact .then_lpc (.then_emit ((portRead_kept hr).trans .of_eq))
  | init | resumed => exact .then_lpc (.trans .of_eq (schedule_kept _ _))
  | suspendHiz => exact .then_lpc (portWrite_kept _ _ s)
  | suspendDisable => exact .then_lpc (portUpdate_kept _ _ _ s)
  | suspended => exact .then_lpc ((portCacheOnly_kept _ s).trans .of_eq)
  | resumeCache => exact .then_lpc (portCacheOnly_kept _ s)
  | resync => exact .then_lpc (portResync_kept s)
  | clock => exact .then_lpc (portIssue_kept _ s)
  | idle | suspendCancel | clockNone | removeCancel | held | removed => exact .of_eq

theorem WorkerMove.kept (h : WorkerMove s t) : Kept s t := by
  cases h with
  | stuck => exact recordFault_kept _ s
  | debounce _ hr | pollAgain _ hr | recheck _ hr => exact .then_goto (portRead_kept hr)
  | pollDone _ hr | result _ hr | readS1 _ _ hr | keyscan _ hr =>
    exact .then_goto ((portRead_kept hr).trans .of_eq)
  | pollTimeout _ hr => exact .then_goto (.then_emit ((portRead_kept hr).trans .of_eq))
  | start => exact .then_goto (portIssue_kept _ s)
  | retryExhausted => exact .then_goto (.then_emit .of_eq)
  | unrecognized => exact .then_goto (emit_kept _ s)
  | force | hizAbsent | mask2 => exact .then_goto (portWrite_kept _ _ s)
  | mask1 => exact .then_goto (.trans .of_eq (portWrite_kept _ _ _))
  | override | enable | muteL | muteR | disable => exact .then_goto (portUpdate_kept _ _ _ s)
  | reportAborted | reReport => exact .then_goto (reportClass_kept _ _ s)
  | reportDetected => exact .then_goto ((emit_kept _ s).trans (reportClass_kept _ _ _))
  | reportNone => exact .then_goto (reportState_kept _ _ s)
  | keyDecide => exact .then_goto (keyDecode_kept _ _ _ s)
  | _ => exact .of_eq

/-- Every step keeps it, whichever agent moves. -/
theorem step_kept (h : step s = .next t) : Kept s t := by
  obtain ⟨_, u, hu, hcases⟩ := step_next h
  refine hu.kept.trans ?_
  obtain ⟨_, i, hi⟩ | ⟨e, he⟩ | hh | hi | hw | hq := hcases
  · exact exec_kept hi
  · exact exec_kept he
  · exact (hostStep_move hh).kept
  · exact (isrStep_move hi).kept
  · exact (workerStep_move hw).kept
  · exact hq.kept

end

/-! ## Systems of several instances -/

/-- The block that has a turn makes its step, or stays where it has stopped (R256). -/
theorem turn_self {n : Nat} {y : System} {s : State} (h : y.instances[n]? = some s) :
    (System.turn n y).instances[n]? = some (match step s with | .next t => t | _ => s) := by
  obtain ⟨hn, _⟩ := List.getElem?_eq_some_iff.mp h
  simp only [System.turn, stepInstance, h]
  cases step s with
  | next t => exact List.getElem?_set_self hn
  | fault r => exact h
  | refused r => exact h

/-- A turn moves no block of the system to another stream of free values. -/
theorem turn_sources (n : Nat) (y : System) :
    (System.turn n y).instances.map State.source = y.instances.map State.source := by
  obtain h | ⟨s, t, hs, ht, h⟩ := turn_cases n y
  · rw [h]
  · obtain ⟨hn, rfl⟩ := List.getElem?_eq_some_iff.mp hs
    rw [h, List.map_set, (step_kept ht).source, ← List.getElem_map State.source (h := by simpa using hn),
      List.set_getElem_self]

/-! ## The obligations -/

/-- Settles O48: `step_kept`, and for systems what a turn does to the block it names and to the others. -/
theorem configTraceFaultsKept : Obligations.ConfigTraceFaultsKept := by
  refine ⟨fun s t h => ?_, fun n y h => ?_, fun n y s => turn_self, fun n k y hk => turn_other hk y⟩
  · have hk := step_kept h
    exact ⟨hk.cfg, hk.trace, hk.faults, hk.source⟩
  · rwa [ownEnvironments, turn_sources]

/-- Settles O49: `step_kept`; which registers are volatile is `isVolatile` written out. -/
theorem registerCopiesInvariantKept : Obligations.RegisterCopiesInvariantKept := by
  refine ⟨fun c a => ?_, fun s t hs h => ⟨(step_kept h).wf hs, (step_kept h).noShadow hs⟩⟩
  rw [isVolatile, Bool.or_eq_true, decide_eq_true_eq, decide_eq_true_eq, volatileBase]

end Sys2Proof.Machine
end

section
/-! The decoder and the encoder (30_encoding.md R70 to R81): each format's decoder is stated once, on the bytes
of an item, and so are the rows it gives. -/

namespace Sys2Proof.Machine

/-! ## An item of each format -/

/-- Where nothing is left over, the item is what its format's decoder says (R70). -/
theorem decodeItem_of_decode {c : Cfg} {f : Format} {bs : List Byte} {x : Except DecodeError Instr}
    (h : decode c f bs = x.map (·, [])) : decodeItem c ⟨f, bs⟩ = x := by
  cases x <;> simp [decodeItem, h, Except.map]

section
variable (c : Cfg)

@[simp] theorem decodeItem_eventByte (b : Byte) : decodeItem c ⟨.event, [b]⟩ = decodeEvent b :=
  decodeItem_of_decode rfl
@[simp] theorem decodeItem_portWord (v m a t : Byte) :
    decodeItem c ⟨.port, [v, m, a, t]⟩ = decodePort t a m v := decodeItem_of_decode rfl
@[simp] theorem decodeItem_reportWord (v k : Byte) : decodeItem c ⟨.report, [v, k]⟩ = decodeReport k v :=
  decodeItem_of_decode rfl
@[simp] theorem decodeItem_resultByte (r : Byte) : decodeItem c ⟨.result, [r]⟩ = .ok (decodeResult c r) := rfl
@[simp] theorem decodeItem_tripletBytes (t : Triplet) :
    decodeItem c ⟨.classify, tripletBytes t⟩ = .ok (decodeClassify c t) := rfl
@[simp] theorem decodeItem_keyscanByte (ks : Byte) : decodeItem c ⟨.keyscan, [ks]⟩ = .ok (.keyscan ks) := rfl
@[simp] theorem decodeItem_buttonBytes (s0 s1 ks : Byte) :
    decodeItem c ⟨.button, [ks, s1, s0]⟩ = .ok (decodeButton c s0 s1 ks) := rfl

end

/-- An item that decodes is of one of the seven formats, and its bytes decode as the format says. -/
theorem decodeItem_ok {c : Cfg} {it : Item} {i : Instr} (h : decodeItem c it = .ok i) :
    (∃ b, decodeEvent b = .ok i) ∨ (∃ t a m v, decodePort t a m v = .ok i) ∨ (∃ k v, decodeReport k v = .ok i) ∨
    (∃ r, decodeResult c r = i) ∨ (∃ t, decodeClassify c t = i) ∨ (∃ ks, Instr.keyscan ks = i) ∨
    ∃ s0 s1 ks, decodeButton c s0 s1 ks = i := by
  obtain ⟨f, bs⟩ := it
  have hd : decode c f bs = .ok (i, []) := by
    unfold decodeItem at h
    split at h <;> cases h
    assumption
  have of_map {x : Except DecodeError Instr} {rest : List Byte} (hx : x.map (·, rest) = .ok (i, [])) : x = .ok i := by
    cases x <;> cases hx
    rfl
  unfold decode at hd
  split at hd
  · exact .inl ⟨_, of_map hd⟩
  · exact .inr (.inl ⟨_, _, _, _, of_map hd⟩)
  · exact .inr (.inr (.inl ⟨_, _, of_map hd⟩))
  · cases hd; exact .inr (.inr (.inr (.inl ⟨_, rfl⟩)))
  · cases hd; exact .inr (.inr (.inr (.inr (.inl ⟨_, rfl⟩))))
  · cases hd; exact .inr (.inr (.inr (.inr (.inr (.inl ⟨_, rfl⟩)))))
  · cases hd; exact .inr (.inr (.inr (.inr (.inr (.inr ⟨_, _, _, rfl⟩)))))
  · cases hd

/-! ## What the decoders give is well formed -/

theorem eventInstr_wellFormed (c : Cfg) (e : Event) : e.instr.wellFormed c = true := by cases e <;> rfl

theorem decodeEvent_wellFormed {c : Cfg} {b : Byte} {i : Instr} (h : decodeEvent b = .ok i) :
    i.wellFormed c = true := by
  unfold decodeEvent at h
  split at h <;> cases h
  exact eventInstr_wellFormed c _

/-- A value lies under a mask if the mask takes nothing from it (R72). -/
theorem within_mask_iff {v m : Byte} : v &&& ~~~m = 0#8 ↔ v &&& m = v := by
  simp only [BitVec.eq_of_getLsbD_eq_iff]
  refine forall₂_congr fun i hi => ?_
  simp [hi]

/-- Everything a `PORT` word that is not rejected stands for (R72). -/
theorem decodePort_ok {t a m v : Byte} {i : Instr} (h : decodePort t a m v = .ok i) :
    i = .read a ∨ i = .write a v ∨ i = .update a m (v &&& m) ∨ i = .cacheOnly (anyBit t 0x01) ∨ i = .resync := by
  unfold decodePort at h
  dsimp only at h
  repeat' split at h
  all_goals cases h
  · exact .inl rfl
  · exact .inr (.inl rfl)
  · exact .inr (.inr (.inl rfl))
  · exact .inr (.inr (.inr (.inl rfl)))
  · exact .inr (.inr (.inr (.inr rfl)))

theorem decodePort_wellFormed {c : Cfg} {t a m v : Byte} {i : Instr} (h : decodePort t a m v = .ok i) :
    i.wellFormed c = true := by
  obtain rfl | rfl | rfl | rfl | rfl := decodePort_ok h
  case inr.inr.inl => simp [Instr.wellFormed, BitVec.and_assoc]
  all_goals rfl

theorem decodeReport_wellFormed {c : Cfg} {k v : Byte} {i : Instr} (h : decodeReport k v = .ok i) :
    i.wellFormed c = true := by
  unfold decodeReport at h
  repeat' split at h
  all_goals cases h
  all_goals rfl

theorem decodeResult_wellFormed (c : Cfg) (r : Byte) : (decodeResult c r).wellFormed c = true := by
  unfold decodeResult
  split
  · rfl
  next h01 =>
  split
  · rfl
  next h09 =>
  split
  · rfl
  next h19 =>
  split
  · next hf =>
    simp only [Instr.wellFormed, Bool.and_eq_true, decide_eq_true_eq]
    exact ⟨⟨⟨h01, h09⟩, h19⟩, hf⟩
  next hf =>
  have hu : unknownResult c r = true := by
    simp only [unknownResult, Bool.and_eq_true, decide_eq_true_eq]
    exact ⟨⟨⟨h01, h09⟩, h19⟩, Option.isNone_iff_eq_none.mpr (Option.not_isSome_iff_eq_none.mp hf)⟩
  cases hb : biasBit r <;> simp [Instr.wellFormed, hu, hb]

theorem decodeClassify_wellFormed (c : Cfg) (t : Triplet) : (decodeClassify c t).wellFormed c = true := by
  unfold decodeClassify
  split
  · assumption
  next hm =>
  split
  · next hp => simpa [Instr.wellFormed, hp] using hm
  · next hp => split <;> simp [Instr.wellFormed, *]

theorem decodeButton_wellFormed (c : Cfg) (s0 s1 ks : Byte) : (decodeButton c s0 s1 ks).wellFormed c = true := by
  unfold decodeButton
  split
  · assumption
  split
  · split <;> simp [Instr.wellFormed, *]
  · simp [Instr.wellFormed, *]

/-! ## Decoding an encoded row -/

/-- An `Update`'s value goes through the mask once in the encoder and once in the decoder (R72). -/
theorem decodeItem_encode_update (c : Cfg) {a m v : Byte} (h : v &&& m = v) :
    decodeItem c (encode (.update a m v)) = .ok (.update a m v) :=
  calc decodeItem c (encode (.update a m v))
      = .ok (.update a m (v &&& m &&& m)) := decodeItem_portWord c _ m a 0x20
    _ = .ok (.update a m v) := by rw [h, h]

/-! ## Reserved values -/

theorem ne_of_le_of_lt {v k : Byte} {n : Nat} (h : n ≤ v.toNat) (hk : k.toNat < n) : v ≠ k := by
  rintro rfl
  omega

/-- The codes of a format with no code 0 end below `n`: a reserved value is none of them. -/
theorem ne_of_reserved {v k : Byte} {n : Nat} (h : v = 0 ∨ n ≤ v.toNat) (h0 : k ≠ 0) (hk : k.toNat < n) : v ≠ k := by
  obtain rfl | h := h
  · exact h0.symm
  · exact ne_of_le_of_lt h hk

theorem eventOfCode_reserved {b : Byte} (h : b = 0 ∨ 7 ≤ b.toNat) : eventOfCode b = none := by
  simp [eventOfCode, ne_of_reserved h]

theorem jackOfCode_reserved {v : Byte} (h : 5 ≤ v.toNat) : jackOfCode v = none := by
  simp [jackOfCode, ne_of_le_of_lt h]

theorem buttonOfCode_reserved {v : Byte} (h : 3 ≤ v.toNat) : buttonOfCode v = none := by
  simp [buttonOfCode, ne_of_le_of_lt h]

theorem decodePort_reserved {t a m v : Byte} (h : anyBit t 0x0E = true) :
    decodePort t a m v = .error .portReserved := if_pos h

/-- The op of a `PORT` word is the upper half of its top byte (R72). -/
theorem decodePort_op {t a m v : Byte} (h : anyBit t 0x0E = false) (hop : 5 ≤ t.toNat / 16) :
    decodePort t a m v = .error .portOp := by
  have htop : 5 ≤ (t >>> 4).toNat := by simpa [Nat.shiftRight_eq_div_pow] using hop
  simpa [decodePort, ne_of_le_of_lt htop] using h

theorem decodeReport_kind {k v : Byte} (h : k = 0 ∨ 4 ≤ k.toNat) : decodeReport k v = .error .reportKind := by
  simp [decodeReport, ne_of_reserved h]

/-! ## The obligations -/

/-- Settles O1: a word's fields are read back as they were written; in the priority tables a row's
well-formedness refutes the conditions of the rows before it and gives its own. -/
theorem decodeEncode : Obligations.DecodeEncode := by
  intro c i h
  cases i with
  | evProbe | evIrq | evFire | evSuspend | evResume | evRemove => rfl
  | read | write | resync => rfl
  | update a m v => exact decodeItem_encode_update c (within_mask_iff.mp (beq_iff_eq.mp h))
  | cacheOnly b => cases b <;> rfl
  | repJack j => cases j <;> rfl
  | repButton b => cases b <;> rfl
  | repRelease => rfl
  | res01 | res09 | res19 => rfl
  | resFourth | resFailBias | resFailNoBias => simp_all [Instr.wellFormed, unknownResult, encode, decodeResult]
  | clHeadset | clHeadphone | clLineOut | clNone => simp_all [Instr.wellFormed, encode, decodeClassify]
  | keyscan => rfl
  | btn0 | btn1 | btn2 | btnNone => simp_all [Instr.wellFormed, encode, decodeButton]

/-- Settles O2: `decodeItem_ok`, and for each format that its decoder gives a well-formed row. -/
theorem decodedIsWellFormed : Obligations.DecodedIsWellFormed := by
  intro c it i h
  obtain ⟨b, h⟩ | ⟨t, a, m, v, h⟩ | ⟨k, v, h⟩ | ⟨r, rfl⟩ | ⟨t, rfl⟩ | ⟨ks, rfl⟩ | ⟨s0, s1, ks, rfl⟩ := decodeItem_ok h
  · exact decodeEvent_wellFormed h
  · exact decodePort_wellFormed h
  · exact decodeReport_wellFormed h
  · exact decodeResult_wellFormed c r
  · exact decodeClassify_wellFormed c t
  · rfl
  · exact decodeButton_wellFormed c s0 s1 ks

/-- Settles O3: the seven words, decoded. -/
theorem listedWordsDecode : Obligations.ListedWordsDecode := by
  unfold Obligations.ListedWordsDecode
  decide

/-- Settles O4: each reserved value is none of those its decoder compares with. -/
theorem reservedValuesRejected : Obligations.ReservedValuesRejected := by
  refine ⟨fun c b h => ?_, fun c v m a t h => ?_, fun c v m a t h hop => ?_, fun c v k h => ?_, fun c v h => ?_,
    fun c v h => ?_, fun c v h => ?_, fun c b => ⟨decodeResult c b, ?_⟩, fun c b => ?_⟩
  · simp [decodeEvent, eventOfCode_reserved h]
  · simp [decodePort_reserved h]
  · simp [decodePort_op h hop]
  · simp [decodeReport_kind h]
  · simp [decodeReport, jackOfCode_reserved h]
  · simp [decodeReport, buttonOfCode_reserved h]
  · simpa [decodeReport] using h
  · simp
  · simp

end Sys2Proof.Machine
end

section
/-! A stimulus script's queues (30_encoding.md R83): which answer a read takes, which failure a store takes, and what
the access makes of it (20_memory.md R52 to R55). -/

namespace Sys2Proof.Machine

/-! ## Taking from a queue -/

section
variable {a : Byte}

theorem takeAnswer_eq_none {q : List Answer} (h : ∀ x ∈ q, x.addr ≠ a) : takeAnswer a q = none := by
  induction q with
  | nil => rfl
  | cons y q ih =>
    obtain ⟨hy, hq⟩ := List.forall_mem_cons.mp h
    simp [takeAnswer, hy, ih hq]

theorem takeAnswer_append {pre : List Answer} (h : ∀ x ∈ pre, x.addr ≠ a) {x : Answer} (hx : x.addr = a)
    (post : List Answer) : takeAnswer a (pre ++ x :: post) = some (x, pre ++ post) := by
  induction pre with
  | nil => simp [takeAnswer, hx]
  | cons y pre ih =>
    obtain ⟨hy, hpre⟩ := List.forall_mem_cons.mp h
    simp [takeAnswer, hy, ih hpre]

theorem takeFail_eq_none {q : List WriteFail} (h : ∀ x ∈ q, x.addr ≠ a) : takeFail a q = none := by
  induction q with
  | nil => rfl
  | cons y q ih =>
    obtain ⟨hy, hq⟩ := List.forall_mem_cons.mp h
    simp [takeFail, hy, ih hq]

theorem takeFail_append {pre : List WriteFail} (h : ∀ x ∈ pre, x.addr ≠ a) {x : WriteFail} (hx : x.addr = a)
    (post : List WriteFail) : takeFail a (pre ++ x :: post) = some (x, pre ++ post) := by
  induction pre with
  | nil => simp [takeFail, hx]
  | cons y pre ih =>
    obtain ⟨hy, hpre⟩ := List.forall_mem_cons.mp h
    simp [takeFail, hy, ih hpre]

/-! ## An access with a given answer -/

variable {s : State}

/-- A read that the cache does not answer fails in cache-only mode, returns the byte of the answer, and leaves
the environment as the answer left it (R52). -/
theorem portRead_of_readAnswer (hc : cachedByte s a = none) {answer : Bool} {v : Byte} {u : State}
    (h : readAnswer a s = some (answer, v, u)) :
    ∃ t, portRead a s = some (!s.cacheOnly && succeeds s.cfg answer, v, t) ∧ t.env = u.env := by
  cases hm : s.cacheOnly with
  | true =>
    exact ⟨logIo false a (emit (.port (.read a v) false (some .cached)) u), by simp [portRead, hc, h, hm],
      by simp [logIo_eq]⟩
  | false => cases hk : succeeds s.cfg answer <;> simp [portRead, hc, h, hm, hk, logIo_eq, cacheBits_eq]

/-- What a store over the bus makes of the environment's outcome (R53, R54, R55). -/
theorem portStore_of_writeAnswer (hm : s.cacheOnly = false) {ok took : Bool} {u : State}
    (h : writeAnswer a s = (ok, took, u)) (op : PortOp) (m v : Byte) :
    (portStore op a m v s).env = u.env ∧
    (portStore op a m v s).trace = u.trace ++ (.port op ok (some .bus) :: if ok then [] else [.log (.ioError a)]) ∧
    (portStore op a m v s).hw = if ok || took then RegFile.setBits u.hw a m v else u.hw := by
  cases ok <;> cases took <;> simp [portStore, hm, h, logIo_eq, cacheBits_eq]

end

/-- Settles O11: the access with the answer that `takeAnswer` or `takeFail` gives. -/
theorem scriptAnswers : Obligations.ScriptAnswers := by
  intro a s hs
  refine ⟨fun hc hq => ?_, fun pre post ok queued hc hq hpre => ?_, fun i op m v hi hm => ?_⟩
  · have hr : portRead a s = none := by
      simp [portRead, cachedByte_eq_none.mpr hc, readAnswer, hs, takeAnswer_eq_none hq]
    exact ⟨hr, by simp [exec, execRead, hr]⟩
  · obtain ⟨t, hr, ht⟩ := portRead_of_readAnswer (cachedByte_eq_none.mpr hc) (by
      rw [readAnswer, if_pos hs, hq, takeAnswer_append hpre rfl])
    exact ⟨_, t, hr, by rintro w rfl; rfl, ht⟩
  · have hexec : exec i s = .next (portStore op a m v s) := by
      obtain ⟨rfl, rfl, rfl⟩ | ⟨rfl, rfl⟩ := hi <;> rfl
    refine ⟨fun hq => ⟨_, hexec, ?_⟩, fun pre post took hq hpre => ⟨_, hexec, ?_⟩⟩
    · exact portStore_of_writeAnswer hm (by rw [writeAnswer, if_pos hs, takeFail_eq_none hq]) op m v
    · obtain ⟨henv, htrace, hhw⟩ := portStore_of_writeAnswer hm (by
        rw [writeAnswer, if_pos hs, hq, takeFail_append hpre rfl]) op m v
      refine ⟨henv, htrace.trans ?_, hhw.trans ?_⟩
      · cases hf : s.cfg.ioFail <;> simp [succeeds, hf]
      · cases hf : s.cfg.ioFail <;> cases took <;> simp [succeeds, hf]

end Sys2Proof.Machine
end

section
/-! What each row of the table writes when it runs on its own (30_encoding.md R71 to R78): `RowMove` gives its next
state, and from that follow the `RESULT` rows and the frame of the rows that access no register. -/

namespace Sys2Proof.Machine

/-! ## The next state of a row -/

/-- The next states of the rows that access no register, by the row. -/
inductive RowMove (s : State) : Instr → State → Prop
  | ignored (e : Event) : RowMove s e.instr s
  | lifecycle {i : Instr} (hi : i ∈ [.evProbe, .evSuspend, .evResume, .evRemove]) (p : LifePoint) :
      RowMove s i (setLpc p s)
  | irq : RowMove s .evIrq (setIsr .read s)
  | fire : RowMove s .evFire (goto .wDispatch { s with slot := .running })
  | cacheOnly (b : Bool) : RowMove s (.cacheOnly b) (portCacheOnly b s)
  | report {i : Instr} (hi : (encode i).fmt = .report) (r : Report) : RowMove s i (report r s)
  | result {i : Instr} (hi : (encode i).fmt = .result) (res : Byte) (e : DetectionResult) :
      RowMove s i (latchResult res e s)
  | classify {i : Instr} (hi : (encode i).fmt = .classify) (t : Triplet) (j : JackState) :
      RowMove s i (latchClass t j s)
  | keyscan (ks : Byte) : RowMove s (.keyscan ks) (latchKeyscan ks s)
  | button {i : Instr} (hi : (encode i).fmt = .button) (ks : Byte) (b : KeyChoice) : RowMove s i (latchButton ks b s)
  | noButton (s0 s1 ks : Byte) :
      RowMove s (.btnNone s0 s1 ks) (log (.unrecognizedKey s0 s1 ks) (latchButton ks .unrecognized s))

/-- An event's row writes its control point where the event is enabled, and nothing otherwise (R227). -/
theorem RowMove.of_event {s t u : State} {e : Event} {enabled : Bool}
    (h : (Host.Outcome.next (if enabled then u else s) : Result) = .next t) (hu : RowMove s e.instr u) :
    RowMove s e.instr t := by
  cases h
  split
  · exact hu
  · exact .ignored e

theorem exec_event_rowMove {e : Event} {s t : State} (h : exec e.instr s = .next t) : RowMove s e.instr t := by
  cases e with
  | irq => exact .of_event (e := .irq) h .irq
  | fire => exact .of_event (e := .fire) h .fire
  | probe => exact .of_event (e := .probe) h (.lifecycle (by decide) _)
  | suspend => exact .of_event (e := .suspend) h (.lifecycle (by decide) _)
  | resume => exact .of_event (e := .resume) h (.lifecycle (by decide) _)
  | remove => exact .of_event (e := .remove) h (.lifecycle (by decide) _)

/-- The rows that read or write registers (R52, R53, R54, R58). -/
def accessesRegisters : Instr → Bool
  | .read _ | .write _ _ | .update _ _ _ | .resync => true
  | _ => false

theorem exec_rowMove {i : Instr} {s t : State} (hi : accessesRegisters i = false) (h : exec i s = .next t) :
    RowMove s i t := by
  cases i with
  | evProbe => exact exec_event_rowMove (e := .probe) h
  | evIrq => exact exec_event_rowMove (e := .irq) h
  | evFire => exact exec_event_rowMove (e := .fire) h
  | evSuspend => exact exec_event_rowMove (e := .suspend) h
  | evResume => exact exec_event_rowMove (e := .resume) h
  | evRemove => exact exec_event_rowMove (e := .remove) h
  | read | write | update | resync => cases hi
  | cacheOnly b => cases h; exact .cacheOnly b
  | repJack | repButton | repRelease => cases h; exact .report rfl _
  | res01 | res09 | res19 | resFourth | resFailBias | resFailNoBias => cases h; exact .result rfl _ _
  | clHeadset | clHeadphone | clLineOut | clNone => cases h; exact .classify rfl _ _
  | keyscan ks => cases h; exact .keyscan ks
  | btn0 | btn1 | btn2 => cases h; exact .button rfl _ _
  | btnNone => cases h; exact .noButton _ _ _

/-! ## What a row leaves alone -/

section
variable {i : Instr} {s t : State} (h : RowMove s i t)
include h

/-- No row but the port's accesses writes anything but control points, the slot, cache-only mode, `st.det`, the
locals that a decode table gives, and the trace. -/
theorem RowMove.frame :
    t = { s with
      slot := t.slot, wpc := t.wpc, isr := t.isr, lpc := t.lpc, cacheOnly := t.cacheOnly, det := t.det
      trace := t.trace
      loc := { s.loc with
        res := t.loc.res, trip := t.loc.trip, newState := t.loc.newState, ks := t.loc.ks, mapped := t.loc.mapped
        button := t.loc.button } } := by
  cases h <;> rfl

theorem RowMove.cacheOnly_eq (hi : ∀ b, i ≠ .cacheOnly b) : t.cacheOnly = s.cacheOnly := by
  cases h with
  | cacheOnly b => exact absurd rfl (hi b)
  | _ => rfl

theorem RowMove.worker_eq (hi : i ≠ .evFire) : t.slot = s.slot ∧ t.wpc = s.wpc := by
  cases h with
  | fire => exact absurd rfl hi
  | _ => exact ⟨rfl, rfl⟩

theorem RowMove.isr_eq (hi : i ≠ .evIrq) : t.isr = s.isr := by
  cases h with
  | irq => exact absurd rfl hi
  | _ => rfl

theorem RowMove.lpc_eq (hi : i ∉ [.evProbe, .evSuspend, .evResume, .evRemove]) : t.lpc = s.lpc := by
  cases h with
  | lifecycle hl => exact absurd hl hi
  | _ => rfl

theorem RowMove.result_eq (hi : (encode i).fmt ≠ .result) : t.det = s.det ∧ t.loc.res = s.loc.res := by
  cases h with
  | result hr => exact absurd hr hi
  | _ => exact ⟨rfl, rfl⟩

theorem RowMove.class_eq (hi : (encode i).fmt ≠ .classify) :
    t.loc.trip = s.loc.trip ∧ t.loc.newState = s.loc.newState := by
  cases h with
  | classify hc => exact absurd hc hi
  | _ => exact ⟨rfl, rfl⟩

theorem RowMove.ks_eq (hi : (encode i).fmt ≠ .keyscan) : t.loc.ks = s.loc.ks := by
  cases h with
  | keyscan => exact absurd rfl hi
  | _ => rfl

theorem RowMove.mapped_eq (hk : (encode i).fmt ≠ .keyscan) (hb : (encode i).fmt ≠ .button) :
    t.loc.mapped = s.loc.mapped := by
  cases h with
  | keyscan => exact absurd rfl hk
  | button hi => exact absurd hi hb
  | noButton => exact absurd rfl hb
  | _ => rfl

theorem RowMove.button_eq (hi : (encode i).fmt ≠ .button) : t.loc.button = s.loc.button := by
  cases h with
  | button hb => exact absurd hb hi
  | noButton => exact absurd rfl hi
  | _ => rfl

theorem RowMove.trace_eq (hr : (encode i).fmt ≠ .report) (hc : ∀ b, i ≠ .cacheOnly b)
    (hn : ∀ s0 s1 ks, i ≠ .btnNone s0 s1 ks) : t.trace = s.trace := by
  cases h with
  | report hi => exact absurd hi hr
  | cacheOnly b => exact absurd rfl (hc b)
  | noButton s0 s1 ks => exact absurd rfl (hn s0 s1 ks)
  | _ => rfl

end

/-- Settles O60: `exec_rowMove`, and what each row leaves alone. -/
theorem frameOfOtherInstructions : Obligations.FrameOfOtherInstructions := by
  intro i s t hread hwrite hupdate hresync h
  have hi : accessesRegisters i = false := by
    cases i with
    | read a => exact absurd rfl (hread a)
    | write a v => exact absurd rfl (hwrite a v)
    | update a m v => exact absurd rfl (hupdate a m v)
    | resync => exact absurd rfl hresync
    | _ => rfl
  have hm := exec_rowMove hi h
  have hf := hm.frame
  refine ⟨fun a => ?_, fun a => ?_, ?_, ?_, ?_, ?_, ?_, ?_, ?_, ?_, ?_, ?_, ?_, ?_, ?_, hm.cacheOnly_eq, hm.worker_eq,
    hm.isr_eq, hm.lpc_eq, hm.result_eq, hm.class_eq, hm.ks_eq, hm.mapped_eq, hm.button_eq, ?_, ?_, ?_, ?_, ?_,
    hm.trace_eq⟩ <;> rw [hf]
  all_goals exact ⟨rfl, rfl⟩

/-! ## The `RESULT` rows -/

/-- The fourth code's entry is the one that decoding its byte gives (R171). -/
theorem decodeEntry_fourth {c : Cfg} {r : Byte} {e : DetectionResult} (hr : (Instr.resFourth r).wellFormed c = true)
    (hc : c.fourthCode = some (r, e)) : decodeEntry c r = e := by
  simp_all [Instr.wellFormed, decodeEntry, fourthEntry]

/-- The row that a result byte decodes to latches the byte with its entry (R78, R170). -/
theorem exec_decodeResult (r : Byte) (s : State) :
    exec (decodeResult s.cfg r) s = .next (latchResult r (decodeEntry s.cfg r) s) := by
  unfold decodeResult
  split
  · next h01 => rw [h01]; rfl
  next h01 =>
  split
  · next h09 => rw [h09]; rfl
  next h09 =>
  split
  · next h19 => rw [h19]; rfl
  next h19 =>
  split
  · rfl
  next hf =>
  have hentry : decodeEntry s.cfg r = if biasBit r then entryFailBias else entryFailNoBias := by
    rw [decodeEntry, if_neg h01, if_neg h09, if_neg h19, Option.not_isSome_iff_eq_none.mp hf]
  rw [hentry]
  cases biasBit r <;> rfl

/-- Settles O18: each row's arm latches its byte and its entry. -/
theorem resultRows : Obligations.ResultRows := by
  refine fun s => ⟨rfl, rfl, rfl, fun r e hr hc => ?_, fun _ => rfl, fun _ => rfl, fun r => exec_decodeResult r s⟩
  rw [← decodeEntry_fourth hr hc]
  rfl

end Sys2Proof.Machine
end

section
/-! The dispatcher: the edge and the timer, the handler's body, the work slot, the worker's first and last step, and
the calls of the reporting collaborator (40_dispatcher.md R100 to R110). -/

namespace Sys2Proof.Machine

section
variable {s : State}

/-! ## When the edge and the timer are accepted -/

/-- `MaskOpen`, read off the two mask registers (R100). -/
theorem maskOpen_iff : maskOpen s = true ↔
    ¬(RegFile.byte s.hw s.cfg.regIrqMask1 = some 0x00 ∧ RegFile.byte s.hw s.cfg.regIrqMask2 = some 0x00) := by
  rw [maskOpen, knownZero, knownZero, Bool.not_eq_true', ← Bool.not_eq_true, Bool.and_eq_true, beq_iff_eq, beq_iff_eq]

theorem eventEnabled_irq_iff : eventEnabled s .irq = true ↔
    (s.mode = .active ∨ s.mode = .suspended) ∧ s.isr = .off ∧
      ¬(RegFile.byte s.hw s.cfg.regIrqMask1 = some 0x00 ∧ RegFile.byte s.hw s.cfg.regIrqMask2 = some 0x00) := by
  rw [← maskOpen_iff, ← attached_iff]
  simp [eventEnabled, and_assoc]

theorem eventEnabled_fire_iff : eventEnabled s .fire = true ↔
    (∃ d, s.slot = .pending d) ∧ s.wpc = .wIdle ∧ (s.mode = .active ∨ s.mode = .suspended) := by
  rw [← attached_iff]
  constructor
  · intro h
    obtain ⟨d, hs, hw, ha⟩ := eventEnabled_fire h
    exact ⟨⟨d, hs⟩, hw, ha⟩
  · rintro ⟨⟨d, hs⟩, hw, ha⟩
    simp [eventEnabled, hs, hw, ha]

/-! ## The handler's read -/

theorem plugSwitchOnly_iff {c : Cfg} {v : Byte} :
    plugSwitchOnly c v = true ↔ v &&& c.s0EventMask = c.s0PlugSwEvent := beq_iff_eq

/-- Where the read is answered, the handler takes the snapshot, clears the flag and ends or goes on by R102's test. -/
theorem isrStep_read {t : State} {ok : Bool} {v : Byte} (hp : s.isr = .read)
    (hr : portRead s.cfg.regStatus0 s = some (ok, v, t)) :
    isrStep s = .next (if s.ignoreNext = true ∧ v &&& s.cfg.s0EventMask = s.cfg.s0PlugSwEvent then
      setIsr .off (log .suppressedSpurious { t with snap := some v, ignoreNext := false })
      else setIsr .mask1 { t with snap := some v, ignoreNext := false }) := by
  simp only [isrStep, hp, isrRead, hr, Bool.and_eq_true, plugSwitchOnly_iff, returnFromInterrupt_eq]
  split <;> rfl

/-! ## The worker's first and last step -/

theorem workerStep_dispatch {j : JackState} (hpc : s.wpc = .wDispatch) (hj : s.jack = some j) :
    workerStep s = .next (goto (if isPresent j then .eTest else .dEntry) s) := by
  simp [workerStep, hpc, wDispatch, needWritten, hj]

theorem workerStep_dispatch_unwritten (hpc : s.wpc = .wDispatch) (hj : s.jack = none) :
    workerStep s = .next (recordFault (.unwrittenState .jack) s) := by
  simp [workerStep, hpc, wDispatch, needWritten, hj]

theorem workerStep_end (hpc : s.wpc = .wEnd) :
    workerStep s = .next { s with
      wpc := .wIdle, slot := slotFinish s.slot, det := none, loc := Locals.unwritten } := by
  simp [workerStep, hpc, wEnd, goto]

end

/-! ## The obligations -/

/-- Settles O28: `isrStep_read` and the two branches of its test; the other labels have one outcome each. -/
theorem handlerBody : Obligations.HandlerBody := by
  refine ⟨fun s t ok v hp hr => ⟨fun h => ?_, fun h => ?_⟩, fun s hp => ?_, fun s hp => ?_, fun s hp => ?_⟩
  · rw [isrStep_read hp hr, if_pos h]; rfl
  · rw [isrStep_read hp hr, if_neg h]; rfl
  all_goals rw [isrStep, hp]; rfl

/-- Settles O30: the dispatch reads `st.jack` alone, and the last step releases the slot by `slotFinish`. -/
theorem workerStartAndEnd : Obligations.WorkerStartAndEnd := by
  refine ⟨fun s hpc => ⟨?_, ?_, workerStep_dispatch_unwritten hpc⟩, fun s hpc => ⟨fun hs => ?_, fun d hs => ?_⟩⟩
  · rintro (hj | hj) <;> exact workerStep_dispatch hpc hj
  · rintro (hj | hj | hj) <;> exact workerStep_dispatch hpc hj
  all_goals rw [workerStep_end hpc, hs]; rfl

/-- Settles O7: the event's enabling test is R100's condition. -/
theorem irqAccepted : Obligations.IrqAccepted := by
  refine fun s => ⟨fun h => ?_, fun h => ?_⟩
  · exact congrArg _ (if_pos (eventEnabled_irq_iff.mpr h))
  · exact congrArg _ (if_neg (mt eventEnabled_irq_iff.mp h))

/-- Settles O8: the event's enabling test is R104's condition. -/
theorem fireStartsWorker : Obligations.FireStartsWorker := by
  refine fun s => ⟨fun h => ?_, fun h => ?_⟩
  · exact congrArg _ (if_pos (eventEnabled_fire_iff.mpr h))
  · exact congrArg _ (if_neg (mt eventEnabled_fire_iff.mp h))

/-- Settles O17: each row's arm is one `report`, which appends to the trace. -/
theorem reportCalls : Obligations.ReportCalls := fun _ => ⟨fun _ => rfl, fun _ => rfl, rfl⟩

/-- Settles O29: a request and a cancel write the slot by `slotSchedule` and `slotCancel`, case by case. -/
theorem slotTransitions : Obligations.SlotTransitions := by
  refine fun s d d' => ⟨fun h => ?_, fun h => ?_, fun h => ?_, fun h => ?_, fun h => ?_, fun h => ?_, ?_⟩
  · rw [schedule_eq, h]; rfl
  · rw [schedule_eq, h]; rfl
  · rw [schedule_eq, h]; rfl
  · rw [schedule_eq, h]; rfl
  · rw [cancel, h]; rfl
  · rw [cancel, h]; rfl
  · intro h
    have hkept : slotCancel s.slot = s.slot := by rcases h with h | h <;> rw [h] <;> rfl
    rw [cancel, hkept]

end Sys2Proof.Machine
end

section
/-! Every step keeps the control invariant, and every step of an agent keeps cache-only mode in line with the lifecycle
(40_dispatcher.md R109; 44_lifecycle.md R223, R224, R225). -/

namespace Sys2Proof.Machine

section
variable {s t : State}

/-- Without an offered item a step is an event or one agent's move, or no agent moves: no word is run. -/
theorem step_move_of_no_item (h : step s = .next t) (hl : s.latch = none) :
    ∃ u, OnlyModel s u ∧
      (EventMove u t ∨ HostMove u t ∨ IsrMove u t ∨ WorkerMove u t ∨ OnlyModel u t) := by
  obtain ⟨_, u, hu, hcases⟩ := step_next h
  refine ⟨u, hu, ?_⟩
  obtain ⟨hitem, _⟩ | ⟨e, he⟩ | hh | hi | hw | hq := hcases
  · exact absurd hl hitem
  · exact .inl (exec_event_move he)
  · exact .inr (.inl (hostStep_move hh))
  · exact .inr (.inr (.inl (isrStep_move hi)))
  · exact .inr (.inr (.inr (.inl (workerStep_move hw))))
  · exact .inr (.inr (.inr (.inr hq)))

/-! ## Cache-only mode -/

theorem cacheModeOk_congr (hmode : t.mode = s.mode) (hlpc : t.lpc = s.lpc) (hcache : t.cacheOnly = s.cacheOnly) :
    cacheModeOk t = cacheModeOk s := by
  simp only [cacheModeOk, hmode, hlpc, hcache]

theorem IsrMove.cacheModeOk_eq (hm : IsrMove s t) : cacheModeOk t = cacheModeOk s := by
  cases hm <;> exact cacheModeOk_congr (by simp) (by simp) (by simp)

theorem WorkerMove.cacheOnly (hm : WorkerMove s t) : t.cacheOnly = s.cacheOnly := by cases hm <;> simp

/-- An event moves the lifecycle point only from `L_IDLE` to the first label of a sequence, which has the same
cache-only mode. -/
theorem EventMove.cacheMode (hm : EventMove s t) (hc : cacheModeOk s = true) : cacheModeOk t = true := by
  cases hm with
  | ignored | irq | fire => exact hc
  | probe hmode hp | suspend hmode hp | resume hmode hp => simpa [cacheModeOk, hmode, hp] using hc
  | remove ha hp => rcases attached_iff.mp ha with hmode | hmode <;> simpa [cacheModeOk, hmode, hp] using hc

/-- The sequences that write cache-only mode, attach, suspend and resume, leave it as the point and mode they move to
ask (R223, R224, R225); every other step of the host stays on one side. -/
theorem HostMove.cacheMode (hm : HostMove s t) (h : ControlInv s) (hc : cacheModeOk s = true) :
    cacheModeOk t = true := by
  have hlife := h.lifeMode
  cases hm with
  | idle | held => exact hc
  | init | suspended | removed | notIdentified => rfl
  | powerEnable hp | powerVoltage hp | identified hp =>
    have hmode : s.mode = .detached := by simpa [hp, lifeModeOk] using hlife
    simpa [cacheModeOk, hmode, hp] using hc
  | suspendCancel hp | suspendHiz hp | suspendDisable hp =>
    have hmode : s.mode = .active := by simpa [hp, lifeModeOk] using hlife
    simpa [cacheModeOk, hmode, hp] using hc
  | resumeCache hp =>
    have hmode : s.mode = .suspended := by simpa [hp, lifeModeOk] using hlife
    simp [cacheModeOk, hmode, portCacheOnly_eq]
  | clockNone hp | resumed hp =>
    have hmode : s.mode = .suspended := by simpa [hp, lifeModeOk] using hlife
    simpa [cacheModeOk, hmode, hp] using hc
  | resync hp | clock hp =>
    have hmode : s.mode = .suspended := by simpa [hp, lifeModeOk] using hlife
    split <;> simpa [cacheModeOk, hmode, hp] using hc
  | removeCancel hp =>
    have hmode : s.mode = .active ∨ s.mode = .suspended := by simpa [hp, lifeModeOk] using hlife
    rcases hmode with hmode | hmode <;> simpa [cacheModeOk, hmode, hp] using hc

end

/-- Settles O50: every move keeps the control invariant (`BlockMove.control`), and without an offered item only the
host writes cache-only mode, in line with the point and mode it moves to. -/
theorem controlInvariantKept : Obligations.ControlInvariantKept := by
  intro s t hs hstep
  constructor
  · obtain ⟨_, u, hu, hmove⟩ := step_move hstep
    exact hmove.control (hs.onlyModel hu)
  · intro hl hc
    obtain ⟨u, hu, hmove⟩ := step_move_of_no_item hstep hl
    rw [← cacheModeOk_congr hu.mode hu.lpc hu.cacheOnly] at hc
    obtain he | hh | hi | hw | hq := hmove
    · exact he.cacheMode hc
    · exact hh.cacheMode (hs.onlyModel hu) hc
    · rwa [hi.cacheModeOk_eq]
    · rwa [cacheModeOk_congr hw.mode hw.lpc hw.cacheOnly]
    · rwa [cacheModeOk_congr hq.mode hq.lpc hq.cacheOnly]

end Sys2Proof.Machine
end

section
/-! The classification of a triplet (41_jack_state_machine.md R131, R132): its order of precedence, the triplets the
block can form, and the `CLASSIFY` rows. -/

namespace Sys2Proof.Machine

/-! ## The precedence, read off the fields -/

theorem tripletByte_eq (t : Triplet) (i : Fin 3) :
    tripletByte t i = if i = 0 then t.b0 else if i = 1 then t.b1 else t.b2 := by
  match i with
  | 0 => rfl
  | 1 => rfl
  | 2 => rfl

theorem tripletFieldSet_iff (f : TripletField) (t : Triplet) :
    tripletFieldSet f t = true ↔ tripletByte t f.idx &&& f.mask ≠ 0 := by
  simp [tripletFieldSet, anyBit]

/-- With the headphone bit set the mic bit decides, whatever `LINE_FIELD` is (R131). -/
theorem classify_of_hpSet {c : Cfg} {t : Triplet} (h : hpSet c t = true) :
    classify c t = if micSet t then .headset else .headphone := by
  simp [classify, h]

/-- No field is set in the zero triplet, under any configuration. -/
theorem classify_zeroTriplet (c : Cfg) : classify c zeroTriplet = .none := by
  have hset (f : TripletField) : tripletFieldSet f zeroTriplet = false := by
    rw [← Bool.not_eq_true, tripletFieldSet_iff, tripletByte_eq]
    simp [zeroTriplet]
  simp [classify, hpSet, lineSet, hset]

/-! ## The `CLASSIFY` rows -/

/-- The row that a triplet decodes to stores the triplet's classification (R80, R131). -/
theorem exec_decodeClassify (t : Triplet) (s : State) :
    exec (decodeClassify s.cfg t) s = .next (latchClass t (classify s.cfg t) s) := by
  unfold decodeClassify classify
  split
  · rfl
  split
  · rfl
  split <;> rfl

/-! ## The obligations -/

/-- Settles O21: each of the model's tests is its field's mask, and the order is the same. -/
theorem classifyPrecedence : Obligations.ClassifyPrecedence := by
  intro c t
  have hmic : micSet t = true ↔ t.b0 &&& 0x08 ≠ 0 := tripletFieldSet_iff micField t
  simp only [classify, Bool.and_eq_true, hpSet, lineSet, hmic, tripletFieldSet_iff, tripletByte_eq]

/-- Settles O22: each admitted `HP_FIELD` is set in the first three triplets, so the mic bit decides. -/
theorem formableTriplets : Obligations.FormableTriplets := by
  intro c hc
  have hset : hpSet c ⟨0x84, 0x30, 0x03⟩ = true ∧ hpSet c ⟨0x8C, 0x30, 0x02⟩ = true ∧
      hpSet c ⟨0x8C, 0x30, 0x01⟩ = true := by
    simp only [List.mem_cons, List.not_mem_nil, or_false] at hc
    unfold hpSet
    obtain hf | hf | hf | hf := hc <;> rw [hf] <;> decide
  obtain ⟨h03, h02, h01⟩ := hset
  exact ⟨classify_of_hpSet h03, classify_of_hpSet h02, classify_of_hpSet h01, classify_zeroTriplet c⟩

/-- Settles O20: each row's arm stores its triplet and its state. -/
theorem classifyRows : Obligations.ClassifyRows :=
  fun t s => ⟨rfl, rfl, rfl, rfl, exec_decodeClassify t s⟩

end Sys2Proof.Machine
end

section
/-! The worker's event flow: the tests of the snapshot and of the pair, the removal, and the rearm
(41_jack_state_machine.md R135 to R139). -/

namespace Sys2Proof.Machine

section
variable {s : State}

/-! ## The tests -/

theorem jackSwitch_iff {c : Cfg} {v : Byte} : jackSwitch c v = true ↔ v &&& c.s0JackSw ≠ 0 := bne_iff_ne

theorem keyOrLine_iff {c : Cfg} {v w : Byte} :
    keyOrLine c v w = true ↔ (v &&& c.keyLine0Mask) ||| (w &&& c.keyLine1Mask) ≠ 0 := bne_iff_ne

/-! ## The removal -/

theorem workerStep_reportNone {j : JackState} (hpc : s.wpc = .eReportNone) (hj : s.jack = some j) :
    workerStep s = .next (goto .rMask1 (reportState j .none s)) := by
  simp [workerStep, hpc, eReportNone, needWritten, hj]

/-- Up to the report of a removal the stored state is written, and it is not None (R137). -/
theorem RunInv.jack_at_reportNone (h : RunInv s) (hpc : s.wpc = .eReportNone) :
    ∃ j, s.jack = some j ∧ j ≠ .none := by
  obtain ⟨j, hj⟩ := Option.isSome_iff_exists.mp (h.control.jack_of_running (by simp [hpc]))
  have hl := h.label
  simp only [labelOk, hpc, hj, bne_iff_ne, ne_eq, Option.some.injEq] at hl
  exact ⟨j, hj, hl⟩

/-! ## The rearm -/

theorem rearmMasks_eq (c : Cfg) (j : JackState) :
    rearmMasks c j = if j = .none ∨ j = .unknown then c.maskPlugOnly else c.maskPresent := by
  cases j <;> rfl

theorem workerStep_mask1 {j : JackState} (hpc : s.wpc = .rMask1) (hj : s.jack = some j) :
    workerStep s = .next (goto .rMask2 (portWrite s.cfg.regIrqMask1 (rearmMasks s.cfg j).m1
      { s with loc := { s.loc with nextState := some j } })) := by
  simp [workerStep, hpc, rMask1, needWritten, hj]

theorem workerStep_mask2 {j : JackState} (hpc : s.wpc = .rMask2) (hj : s.loc.nextState = some j) :
    workerStep s = .next (goto .wEnd (portWrite s.cfg.regIrqMask2 (rearmMasks s.cfg j).m2 s)) := by
  simp [workerStep, hpc, rMask2, needWritten, hj]

/-- `t` is `s` after a bus write of `v` to `a` which is traced with `ok`: it succeeds where the environment may not fail
it, and a success sets the codec's register (R53, R55). -/
structure BusWrite (a v : Byte) (ok : Bool) (s t : State) : Prop where
  trace  : t.trace[s.trace.length]? = some (.port (.write a v) ok (some .bus))
  noFail : s.cfg.ioFail = false → ok = true
  hw     : ok = true → t.hw = RegFile.setBits s.hw a 0xFF v

theorem portWrite_bus (a v : Byte) (hc : s.cacheOnly = false) : ∃ ok, BusWrite a v ok s (portWrite a v s) := by
  obtain ⟨hcache, _⟩ | ⟨_, ok, taken, e, d, hok, h⟩ := portStore_spec (.write a v) a 0xFF v s
  · simp [hc] at hcache
  · refine ⟨ok, ?_, hok, fun ht => ?_⟩
    · rw [portWrite, h]; simp
    · rw [portWrite, h]; simp [ht]

/-- The first rearm step, outside cache-only mode. -/
theorem workerStep_mask1_bus {j : JackState} (hpc : s.wpc = .rMask1) (hj : s.jack = some j)
    (hc : s.cacheOnly = false) : ∃ t ok, workerStep s = .next t ∧
      BusWrite s.cfg.regIrqMask1 (rearmMasks s.cfg j).m1 ok s t ∧
      t.wpc = .rMask2 ∧ t.loc.nextState = some j ∧ t.cfg = s.cfg ∧ t.cacheOnly = false := by
  obtain ⟨ok, htrace, hio, hhw⟩ := portWrite_bus (s := { s with loc := { s.loc with nextState := some j } })
    s.cfg.regIrqMask1 (rearmMasks s.cfg j).m1 hc
  exact ⟨_, ok, workerStep_mask1 hpc hj, ⟨htrace, hio, hhw⟩, rfl, by simp, by simp, by simp [hc]⟩

/-- The second rearm step, outside cache-only mode. -/
theorem workerStep_mask2_bus {j : JackState} (hpc : s.wpc = .rMask2) (hj : s.loc.nextState = some j)
    (hc : s.cacheOnly = false) : ∃ t ok, workerStep s = .next t ∧
      BusWrite s.cfg.regIrqMask2 (rearmMasks s.cfg j).m2 ok s t ∧ t.wpc = .wEnd ∧ t.cfg = s.cfg := by
  obtain ⟨ok, htrace, hio, hhw⟩ := portWrite_bus s.cfg.regIrqMask2 (rearmMasks s.cfg j).m2 hc
  exact ⟨_, ok, workerStep_mask2 hpc hj, ⟨htrace, hio, hhw⟩, rfl, by simp⟩

/-- The two mask registers are different ones (R63). -/
theorem cfgOk_maskRegs {c : Cfg} (h : cfgOk c = true) : c.regIrqMask1 ≠ c.regIrqMask2 := by
  simp only [cfgOk, addressesOk, Bool.and_eq_true, decide_eq_true_eq] at h
  obtain ⟨_, ⟨hne, _⟩, _⟩ := h
  exact hne

/-- No pair that a rearm writes closes the gate (R7). -/
theorem cfgOk_rearmMasks {c : Cfg} (h : cfgOk c = true) (j : JackState) : rearmMasks c j ≠ ⟨0, 0⟩ := by
  simp only [cfgOk, numbersOk, Bool.and_eq_true, decide_eq_true_eq] at h
  obtain ⟨⟨⟨_, ⟨⟨⟨⟨⟨⟨_, hplug⟩, hpresent⟩, _⟩, _⟩, _⟩, _⟩, _⟩, _⟩, _⟩ := h
  rw [rearmMasks_eq]
  split
  · exact hplug
  · exact hpresent

/-- The gate is open where the mask registers are known to hold a pair other than (0, 0) (R100). -/
theorem maskOpen_of_pair {m : MaskPair} (hm : m ≠ ⟨0, 0⟩) (h1 : RegFile.byte s.hw s.cfg.regIrqMask1 = some m.m1)
    (h2 : RegFile.byte s.hw s.cfg.regIrqMask2 = some m.m2) : maskOpen s = true := by
  rw [maskOpen_iff, h1, h2]
  rintro ⟨hz1, hz2⟩
  obtain ⟨m1, m2⟩ := m
  obtain rfl : m1 = 0 := Option.some.inj hz1
  obtain rfl : m2 = 0 := Option.some.inj hz2
  exact hm rfl

end

/-! ## The obligations -/

/-- Settles O37: each step's own test, as `jackSwitch_iff` and `keyOrLine_iff` read it. -/
theorem eventFlowSteps : Obligations.EventFlowSteps := by
  refine ⟨fun s v hpc hs => ?_, fun s hpc hs => ?_, fun s t v w ok hpc hs hr => ?_, fun s t v ok hpc hr => ?_,
    fun s v w hpc h0 h1 => ?_⟩
  · rw [← ite_not]
    simp only [workerStep, hpc, eTest, needWritten, hs, jackSwitch_iff, goto, ne_eq]
  · simp only [workerStep, hpc, eTest, needWritten, hs]
  · rw [← ite_not]
    simp only [workerStep, hpc, eReadS1, needWritten, hs, hr, keyOrLine_iff, goto, ne_eq]
  · simp only [workerStep, hpc, eKeyscan, hr, goto]
  · simp only [workerStep, hpc, eUnrecognized, needWritten, h0, h1, goto, log, emit]

/-- Settles O38: the updates are the labels' own; the report is `reportState` from the stored state, which the run
invariant says is not None. -/
theorem removalSteps : Obligations.RemovalSteps := by
  have hreport (s : State) (j : JackState) (hpc : s.wpc = .eReportNone) (hj : s.jack = some j) : workerStep s =
      .next { s with
        jack := some .none
        trace := s.trace ++ if j = .none then [] else [.rep (.jack .none)]
        wpc := .rMask1 } := by
    rw [workerStep_reportNone hpc hj, reportState_eq]
    simp only [goto, eq_comm]
  refine ⟨fun s hpc => ?_, fun s hpc => ?_, fun s hpc => ?_, hreport, fun s hs hpc => ?_⟩
  · rw [workerStep, hpc]; rfl
  · rw [workerStep, hpc]; rfl
  · rw [workerStep, hpc]; rfl
  · obtain ⟨j, hj, hne⟩ := hs.jack_at_reportNone hpc
    rw [hreport s j hpc hj, if_neg hne]

/-- Settles O39: the pair of `rearmMasks`, from `st.jack` at the first write and from `nextState` at the second. -/
theorem rearmWrites : Obligations.RearmWrites := by
  refine ⟨fun s j hpc hj m hm => ?_, fun s j hpc hj m hm => ?_⟩
  · rw [hm, ← rearmMasks_eq, workerStep_mask1 hpc hj]; rfl
  · rw [hm, ← rearmMasks_eq, workerStep_mask2 hpc hj]; rfl

/-- Settles O40: each step is one `BusWrite`. The registers differ, so the second write leaves the first one's byte, and
the pair is not (0, 0). -/
theorem rearmOpensGate : Obligations.RearmOpensGate := by
  intro s j hcfg hwf hc hpc hj
  obtain ⟨t, ok1, hstep1, hw1, hpc1, hn1, hcfg1, hc1⟩ := workerStep_mask1_bus hpc hj hc
  obtain ⟨u, ok2, hstep2, hw2, hpc2, hcfg2⟩ := workerStep_mask2_bus hpc1 hn1 hc1
  have hio2 := hw2.noFail
  rw [hcfg1] at hw2 hcfg2 hio2
  refine ⟨t, u, ok1, ok2, hstep1, hstep2, hpc2, hcfg2, hw1.trace, hw2.trace,
    fun hio => ⟨hw1.noFail hio, hio2 hio⟩, ?_⟩
  rintro ⟨hok1, hok2⟩
  have hwf1 : RegFile.wf t.hw = true := by rw [hw1.hw hok1]; exact RegFile.wf_setBits hwf _ _ _
  have hbyte2 : RegFile.byte u.hw u.cfg.regIrqMask2 = some (rearmMasks s.cfg j).m2 := by
    rw [hw2.hw hok2, hcfg2, RegFile.byte_setBits_all hwf1]
  have hbyte1 : RegFile.byte u.hw u.cfg.regIrqMask1 = some (rearmMasks s.cfg j).m1 := by
    rw [hw2.hw hok2, hcfg2, RegFile.byte_setBits_ne hwf1 _ _ (cfgOk_maskRegs hcfg).symm, hw1.hw hok1,
      RegFile.byte_setBits_all hwf]
  have hopen := maskOpen_of_pair (cfgOk_rearmMasks hcfg j) hbyte1 hbyte2
  rw [hcfg2] at hbyte1 hbyte2 ⊢
  exact ⟨hbyte1, hbyte2, hopen⟩

end Sys2Proof.Machine
end

section
/-! What every step of the machine keeps of the jack state machine: how a run ends, how `st.jack` moves, and when it is
reported (41_jack_state_machine.md R130, R134, R150, R151). -/

namespace Sys2Proof.Machine

section
variable {s t : State}

/-! ## How a run ends -/

theorem EventMove.wpc (hm : EventMove s t) : t.wpc = s.wpc ∨ t.wpc = .wDispatch := by
  cases hm <;> simp

theorem HostMove.wpc (hm : HostMove s t) : t.wpc = s.wpc := by cases hm <;> simp

/-- A move goes to a label other than the current one only as the timer starts a run, or as the worker's own step. -/
theorem BlockMove.wpc (hm : BlockMove s t) : t.wpc = s.wpc ∨ t.wpc = .wDispatch ∨ WorkerMove s t := by
  cases hm with
  | word hm => exact .inl hm.runKept.wpc
  | event hm => exact hm.wpc.imp_right .inl
  | host hm => exact .inl hm.wpc
  | isr hm => exact .inl hm.runKept.wpc
  | worker hm => exact .inr (.inr hm)
  | quiet hm => exact .inl hm.wpc

/-- A step with two targets does not enter a label that both differ from. -/
theorem ite_ne_label {p : Prop} [Decidable p] {l m x : Label} (hl : l ≠ x) (hm : m ≠ x) :
    (if p then l else m) ≠ x := by
  split
  · exact hl
  · exact hm

/-- Of all labels' targets only that of `R_MASK2` is `W_END` (R135). -/
theorem WorkerMove.enters_wEnd (hm : WorkerMove s t) (ht : t.wpc = .wEnd) : s.wpc = .wEnd ∨ s.wpc = .rMask2 := by
  cases hm with
  | idle | stuck => exact .inl (by simpa using ht)
  | mask2 hpc => exact .inr hpc
  | dispatch | start | hizPresent | hizAbsent | recheck | test | readS1 =>
    exact absurd ht (ite_ne_label nofun nofun)
  | debounce => exact absurd ht (ite_ne_label nofun (ite_ne_label nofun nofun))
  | _ => simp at ht

/-- Of all labels' targets only that of `R_MASK1` is `R_MASK2` (R135). -/
theorem WorkerMove.enters_rMask2 (hm : WorkerMove s t) (ht : t.wpc = .rMask2) :
    s.wpc = .rMask2 ∨ s.wpc = .rMask1 := by
  cases hm with
  | idle | stuck => exact .inl (by simpa using ht)
  | mask1 hpc => exact .inr hpc
  | dispatch | start | hizPresent | hizAbsent | recheck | test | readS1 =>
    exact absurd ht (ite_ne_label nofun nofun)
  | debounce => exact absurd ht (ite_ne_label nofun (ite_ne_label nofun nofun))
  | _ => simp at ht

/-! ## How `st.jack` moves -/

/-- The worker stores other than None only at `D_REPORT`: the removal reports None, and a re-report classifies the zero
triplet (R137, R179). -/
theorem WorkerMove.jack_eq_or_report_or_none (hm : WorkerMove s t) :
    t.jack = s.jack ∨ s.wpc = .dReport ∨ t.jack = some .none := by
  cases hm with
  | reportAborted hpc | reportDetected hpc => exact .inr (.inl hpc)
  | reReport => right; right; simp [classify_zeroTriplet]
  | reportNone => exact .inr (.inr rfl)
  | _ => left; simp

/-- A move keeps `st.jack`, or reports a detection, or leaves `st.jack` absent. -/
theorem BlockMove.jack (hm : BlockMove s t) : t.jack = s.jack ∨ s.wpc = .dReport ∨ jackAbsent t = true := by
  rw [jackAbsent_iff]
  cases hm with
  | word hm => exact .inl hm.jack
  | event hm => exact .inl hm.jack
  | isr hm => exact .inl hm.jack
  | quiet hm => exact .inl hm.jack
  | host hm => exact hm.jack.imp_right fun ⟨_, hj⟩ => .inr (.inr hj)
  | worker hm => exact hm.jack_eq_or_report_or_none.imp_right (Or.imp_right .inl)

theorem isPresent_of_jackAbsent {j : JackState} (h : jackAbsent s = true) (hj : s.jack = some j) :
    isPresent j = false := by
  rw [jackAbsent_iff, hj] at h
  obtain h | h := h <;> cases h <;> rfl

/-- A run reports a detection only where `st.jack` is absent (R130). -/
theorem RunInv.jackAbsent_at_report (h : RunInv s) (hpc : s.wpc = .dReport) : jackAbsent s = true := by
  have hl := h.label
  simp only [labelOk, hpc, Bool.and_eq_true] at hl
  exact hl.1

/-! ## When `st.jack` is reported -/

/-- `t`'s trace is `s`'s with entries appended; a jack report among them is of the state that `st.jack` changes to. -/
def ReportsChange (s t : State) : Prop :=
  ∃ l, t.trace = s.trace ++ l ∧ ∀ j, TraceEvent.rep (.jack j) ∈ l → s.jack ≠ some j ∧ t.jack = some j

theorem AppendsNoReport.reportsChange (h : AppendsNoReport s t) : ReportsChange s t := by
  obtain ⟨l, hl, hno⟩ := h
  exact ⟨l, hl, fun j hj => absurd hj (hno _)⟩

theorem AppendsNoReport.of_eq (h : t.trace = s.trace) : AppendsNoReport s t := ⟨[], by simpa using h, by simp⟩

theorem AppendsNoReport.trans_eq {u : State} (h : AppendsNoReport s u) (ht : t.trace = u.trace := by rfl) :
    AppendsNoReport s t := by
  obtain ⟨l, hl, hno⟩ := h
  exact ⟨l, ht.trans hl, hno⟩

/-- A record of the log is no report (R240, R252). -/
theorem AppendsNoReport.then_log (k : LogKind) (h : AppendsNoReport s t) : AppendsNoReport s (log k t) := by
  obtain ⟨l, hl, hno⟩ := h
  exact ⟨l ++ [.log k], by simp [log, hl], by simpa using hno⟩

theorem schedule_appends (d : Nat) (s : State) : AppendsNoReport s (schedule d s) := ⟨_, rfl, by simp⟩

theorem ReportsChange.of_log {k : LogKind} (h : ReportsChange (log k s) t) : ReportsChange s t := by
  obtain ⟨l, hl, hrep⟩ := h
  exact ⟨.log k :: l, by simpa [log] using hl, by simpa using hrep⟩

/-- `ReportState(n)` reports if and only if the stored state is another one (R134). -/
theorem reportState_reportsChange {j : JackState} (n : JackState) (hj : s.jack = some j) :
    ReportsChange s (reportState j n s) := by
  rw [reportState_eq]
  refine ⟨_, rfl, fun k hk => ?_⟩
  split at hk
  · cases hk
  · next hne =>
    obtain rfl : k = n := by simpa using hk
    exact ⟨by simpa [hj, eq_comm] using hne, rfl⟩

/-- A key decision reports a button or a release, if anything (R203, R204). -/
theorem keyDecode_reportsChange (s0 s1 ks : Byte) (s : State) : ReportsChange s (keyDecode s0 s1 ks s) := by
  unfold keyDecode
  split
  · dsimp only
    split <;> exact ⟨[_], rfl, by simp⟩
  · exact ⟨[_], rfl, by simp⟩

theorem EventMove.appends (hm : EventMove s t) : AppendsNoReport s t := by cases hm <;> exact .of_eq rfl

theorem IsrMove.appends (hm : IsrMove s t) : AppendsNoReport s t := by
  cases hm with
  | off => exact .of_eq rfl
  | suppressed hp hr => exact .then_log _ (portRead_appends hr).trans_eq
  | read hp hr => exact (portRead_appends hr).trans_eq
  | mask1 | mask2 => exact portWrite_appends _ _ s
  | sched => exact schedule_appends _ s

theorem HostMove.appends (hm : HostMove s t) : AppendsNoReport s t := by
  cases hm with
  | powerEnable | powerVoltage => exact powerCall_appends _ s
  | identified hp hr => exact (portRead_appends hr).trans_eq
  | notIdentified hp hr => exact .then_log _ (portRead_appends hr).trans_eq
  | init | resumed => exact schedule_appends _ _
  | suspendHiz => exact portWrite_appends _ _ s
  | suspendDisable => exact portUpdate_appends _ _ _ s
  | suspended | resumeCache => exact ⟨[_], rfl, by simp⟩
  | resync => exact portResync_appends s
  | clock => exact portIssue_appends _ s
  | idle | suspendCancel | clockNone | removeCancel | held | removed => exact .of_eq rfl

/-- The worker's reports of the jack are those of `ReportState` (R134). -/
theorem WorkerMove.reportsChange (hm : WorkerMove s t) : ReportsChange s t := by
  cases hm with
  | reportAborted _ _ hj | reReport _ hj | reportNone _ hj => exact reportState_reportsChange _ hj
  | reportDetected _ _ hj => exact .of_log (reportState_reportsChange _ hj)
  | keyDecide => exact keyDecode_reportsChange _ _ _ s
  | debounce _ hr | pollDone _ hr | pollAgain _ hr | result _ hr | recheck _ hr | readS1 _ _ hr | keyscan _ hr =>
    exact (portRead_appends hr).trans_eq.reportsChange
  | pollTimeout _ hr => exact AppendsNoReport.reportsChange (.then_log _ (portRead_appends hr).trans_eq)
  | start => exact (portIssue_appends _ s).reportsChange
  | force | hizAbsent | mask1 | mask2 => exact (portWrite_appends _ _ _).reportsChange
  | override | enable | muteL | muteR | disable => exact (portUpdate_appends _ _ _ s).reportsChange
  | retryExhausted | unrecognized => exact AppendsNoReport.reportsChange (.then_log _ (.of_eq rfl))
  | _ => exact AppendsNoReport.reportsChange (.of_eq (by simp))

theorem ReportsChange.of_mem_drop {j : JackState} (h : ReportsChange s t)
    (hj : .rep (.jack j) ∈ t.trace.drop s.trace.length) : s.jack ≠ some j ∧ t.jack = some j := by
  obtain ⟨l, hl, hrep⟩ := h
  rw [hl, List.drop_left] at hj
  exact hrep j hj

end

/-! ## The obligations -/

/-- Settles O41: no move but the worker's own enters either label, and each is the target of one label. -/
theorem runEndsWithRearm : Obligations.RunEndsWithRearm := by
  intro s t hstep
  obtain ⟨_, u, hu, hmove⟩ := step_move hstep
  rw [← hu.wpc]
  obtain hkept | hfire | hm := hmove.wpc
  · rw [hkept]
    exact ⟨absurd, absurd⟩
  · rw [hfire]
    exact ⟨nofun, nofun⟩
  · exact ⟨fun ht => (hm.enters_wEnd ht).resolve_left, fun ht => (hm.enters_rMask2 ht).resolve_left⟩

/-- Settles O54: a move that writes a present state is a report of a detection, and that starts from an absent one. -/
theorem presentOnlyThroughAbsent : Obligations.PresentOnlyThroughAbsent := by
  intro s t j k hs hstep hj hk hpj hpk
  obtain ⟨_, u, hu, hmove⟩ := step_move hstep
  rw [← hu.jack] at hj
  obtain hkept | hreport | habsent := hmove.jack
  · rw [hkept, hj] at hk
    exact (Option.some.inj hk).symm
  · have habsent := (hu.runInv hs).jackAbsent_at_report hreport
    simp [isPresent_of_jackAbsent habsent hj] at hpj
  · simp [isPresent_of_jackAbsent habsent hk] at hpk

/-- Settles O56: without an offered item only the worker reports the jack, by `ReportState`. -/
theorem reportOnlyOnChange : Obligations.ReportOnlyOnChange := by
  intro s t j hl hstep hrep
  obtain ⟨u, hu, hmove⟩ := step_move_of_no_item hstep hl
  rw [← hu.trace] at hrep
  rw [← hu.jack]
  have hchange : ReportsChange u t := by
    obtain he | hh | hi | hw | hq := hmove
    · exact he.appends.reportsChange
    · exact hh.appends.reportsChange
    · exact hi.appends.reportsChange
    · exact hw.reportsChange
    · exact AppendsNoReport.reportsChange (.of_eq hq.trace)
  exact hchange.of_mem_drop hrep

end Sys2Proof.Machine
end

section
/-! The detection sequencer (42_detection_sequencer.md R160 to R179): a label that tests what it read has one equation
for all its branches. -/

namespace Sys2Proof.Machine

section
variable {s t : State}

/-! ## Bits and states -/

theorem anyBit_iff {v m : Byte} : anyBit v m = true ↔ v &&& m ≠ 0 := bne_iff_ne

/-- The absent states are None and Unknown (R12). -/
theorem isPresent_iff {j : JackState} : isPresent j = true ↔ ¬(j = .none ∨ j = .unknown) := by
  cases j <;> decide

/-- `reportClass` writes the stored state, the two locals and the trace (R175). -/
theorem reportClass_eq (j : JackState) (tr : Triplet) (s : State) :
    reportClass j tr s =
      { s with
        jack := some (classify s.cfg tr)
        loc := { s.loc with trip := some tr, newState := some (classify s.cfg tr) }
        trace := s.trace ++ if classify s.cfg tr = j then [] else [.rep (.jack (classify s.cfg tr))] } :=
  reportState_eq j (classify s.cfg tr) (latchClass tr (classify s.cfg tr) s)

/-! ## The samples of the jack switch -/

theorem sampleJackSwitch_of_portRead {k : Bool → State → State} {ok : Bool} {v : Byte}
    (hr : portRead s.cfg.regStatus0 s = some (ok, v, t)) :
    sampleJackSwitch s k = .next (k (jackSwitch s.cfg v) t) := by
  simp only [sampleJackSwitch, hr]

theorem workerStep_debounce {k : Nat} {ok : Bool} {v : Byte} (hpc : s.wpc = .dDeb k)
    (hr : portRead s.cfg.regStatus0 s = some (ok, v, t)) :
    workerStep s = .next (goto (if v &&& s.cfg.s0JackSw = 0 then .dNotPresent
      else if k < s.cfg.debounceSamples then .dDeb (k + 1) else .dStart 1 1) t) := by
  simp only [workerStep, hpc, dDeb, sampleJackSwitch_of_portRead hr, Bool.not_eq_true', ← Bool.not_eq_true,
    jackSwitch_iff, ne_eq, Classical.not_not]

/-! ## The attempts -/

theorem workerStep_start {j q : Nat} {op : StoreOp} (hpc : s.wpc = .dStart j q)
    (hop : (testStart s.cfg)[q - 1]? = some op) :
    workerStep s = .next (goto (if q < (testStart s.cfg).length then .dStart j (q + 1) else .dPoll j 1)
      (portIssue op s)) := by
  simp only [workerStep, hpc, dStart, hop]

theorem workerStep_start_none {j q : Nat} (hpc : s.wpc = .dStart j q) (hl : testStart s.cfg = []) :
    workerStep s = .next (goto (.dPoll j 1) s) := by
  simp only [workerStep, hpc, dStart, hl, List.getElem?_nil]

theorem workerStep_poll {j i : Nat} {ok : Bool} {v : Byte} (hpc : s.wpc = .dPoll j i)
    (hr : portRead s.cfg.regDetectDone s = some (ok, v, t)) :
    workerStep s = .next (if v &&& s.cfg.doneMask ≠ 0 then
        goto (.dResult j) { t with loc := { t.loc with timedOut := some false } }
      else if i < s.cfg.pollCap then goto (.dPoll j (i + 1)) t
      else goto (.dResult j) (log .detectTimeout { t with loc := { t.loc with timedOut := some true } })) := by
  simp only [workerStep, hpc, dPoll, hr, anyBit_iff, apply_ite Host.Outcome.next]

/-- The attempt fails unless it did not time out and its decode succeeded; a failed one costs one of the budget. -/
theorem workerStep_retry {j r : Nat} {timedOut : Bool} {det : DetectionResult} (hpc : s.wpc = .dRetry j)
    (ht : s.loc.timedOut = some timedOut) (hd : s.det = some det) (hr : s.retry = some r) :
    workerStep s = .next (if timedOut = false ∧ det.succeeded = true then goto .dForce s
      else if 0 < r - 1 then goto (.dStart (j + 1) 1) { s with retry := some (r - 1) }
      else goto .dForce (log .detectExhausted { s with retry := some (r - 1) })) := by
  have hfail : (timedOut || !det.succeeded) = true ↔ ¬(timedOut = false ∧ det.succeeded = true) := by
    cases timedOut <;> simp
  simp only [workerStep, hpc, dRetry, needWritten, ht, hd, hr, hfail, ite_not, apply_ite Host.Outcome.next]

/-! ## The report and the force for an absent state -/

theorem workerStep_report_detected {j : JackState} {d : DetectionResult} (hpc : s.wpc = .dReport)
    (hj : s.jack = some j) (ha : s.loc.aborted = some false) (hd : s.det = some d) :
    workerStep s = .next (goto .dSupp (reportClass j d.status (log (.detectQuality d.status.b2) s))) := by
  simp [workerStep, hpc, dReport, needWritten, hj, ha, hd]

theorem workerStep_report_aborted {j : JackState} {tr : Triplet} (hpc : s.wpc = .dReport) (hj : s.jack = some j)
    (ha : s.loc.aborted = some true) (ht : s.loc.trip = some tr) :
    workerStep s = .next (goto .dSupp (reportClass j tr s)) := by
  simp [workerStep, hpc, dReport, needWritten, hj, ha, ht]

theorem workerStep_reReport {j : JackState} (hpc : s.wpc = .dReReport) (hj : s.jack = some j) :
    workerStep s = .next (goto .rMask1 (reportClass j zeroTriplet s)) := by
  simp [workerStep, hpc, dReReport, needWritten, hj]

theorem workerStep_hiz {n : JackState} {aborted : Bool} (hpc : s.wpc = .dHiz) (hn : s.loc.newState = some n)
    (ha : s.loc.aborted = some aborted) :
    workerStep s = .next (goto (if aborted then .rMask1 else .dRecheck)
      (if n = .none ∨ n = .unknown then portWrite s.cfg.regForce s.cfg.forceHiz s else s)) := by
  simp only [workerStep, hpc, dHiz, needWritten, hn, ha, isPresent_iff, ite_not]

end

/-! ## The obligations -/

/-- Settles O31: the entry and the "not present" label have one outcome each, and a sample is `workerStep_debounce`. -/
theorem debounceSteps : Obligations.DebounceSteps := by
  refine ⟨fun s hpc => ?_, fun s t k ok v hpc hr => ⟨fun hv => ?_, fun hv hk => ?_, fun hv hk => ?_⟩,
    fun s hpc => ?_⟩
  · rw [workerStep, hpc]; rfl
  · rw [workerStep_debounce hpc hr, if_pos hv]; rfl
  · rw [workerStep_debounce hpc hr, if_neg hv, if_pos hk]; rfl
  · rw [workerStep_debounce hpc hr, if_neg hv, if_neg hk]; rfl
  · rw [workerStep, hpc]; rfl

/-- Settles O32: an operation of the list is `portIssue`, a poll the branches of `workerStep_poll`, and the result read
latches the byte with its entry. (The model's bound on an attempt's steps is the definition `attemptSteps`.) -/
theorem attemptSteps_holds : Obligations.AttemptSteps := by
  refine ⟨fun s j q hpc _ => ⟨workerStep_start_none hpc, fun a v => workerStep_start hpc,
      fun a m v => workerStep_start hpc⟩, fun c => ⟨fun hc => ?_, fun hc => ?_⟩,
    fun s t j i ok v hpc hr => ⟨fun hv => ?_, fun hv hi => ?_, fun hv hi => ?_⟩, fun s t j ok v hpc hr => ?_⟩
  · rw [testStart, hc]
  · rw [testStart, hc]
  · rw [workerStep_poll hpc hr, if_pos hv]; rfl
  · rw [workerStep_poll hpc hr, if_neg (Classical.not_not.mpr hv), if_pos hi]; rfl
  · rw [workerStep_poll hpc hr, if_neg (Classical.not_not.mpr hv), if_neg hi]; rfl
  · simp only [workerStep, hpc, dResult, hr, goto, latchResult]

/-- Settles O33: the three branches of `workerStep_retry`; after a failure the budget says which of the last two it is. -/
theorem retryStep : Obligations.RetryStep := by
  refine fun s j r timedOut det hpc ht hd hr _ => ⟨fun hok => ?_, fun hfail hleft => ?_, fun hfail hlast => ?_⟩
  · rw [workerStep_retry hpc ht hd hr, if_pos hok]; rfl
  · rw [workerStep_retry hpc ht hd hr, if_neg hfail, if_pos (by omega)]; rfl
  · subst hlast
    rw [workerStep_retry hpc ht hd hr, if_neg hfail, if_neg (by decide)]; rfl

/-- Settles O35: each of the three steps is one `reportClass`, and the zero triplet is None under every configuration. -/
theorem detectionReports : Obligations.DetectionReports := by
  refine ⟨fun s j d hpc hj ha hd => ?_, fun s j tr hpc hj ha htr => ?_, fun s j hpc hj => ?_⟩
  · rw [workerStep_report_detected hpc hj ha hd, reportClass_eq, List.append_cons]
    rfl
  · rw [workerStep_report_aborted hpc hj ha htr, reportClass_eq, ← htr]
    rfl
  · rw [workerStep_reReport hpc hj, reportClass_eq, classify_zeroTriplet]
    simp only [goto, zeroTriplet, eq_comm]

/-- Settles O36: the flag is set or kept, the force is `workerStep_hiz`, and the recheck is one more sample. -/
theorem detectionAftermath : Obligations.DetectionAftermath := by
  refine ⟨fun s n hpc hn => ?_, fun s n aborted hpc hn ha => ⟨fun habs => ?_, fun hpres => ?_⟩,
    fun s t ok v hpc hr => ?_⟩
  · simp only [workerStep, hpc, dSupp, needWritten, hn]
    split <;> rfl
  · rw [workerStep_hiz hpc hn ha, if_pos habs]; rfl
  · rw [workerStep_hiz hpc hn ha, if_neg hpres]; rfl
  · rw [← ite_not]
    simp only [workerStep, hpc, dRecheck, sampleJackSwitch_of_portRead hr, jackSwitch_iff, goto, ne_eq]

/-- Settles O34: each label has one outcome, the port operation and the next label; the first needs the result. -/
theorem applyResult : Obligations.ApplyResult := by
  refine ⟨fun s d hpc hd => ?_, fun s hpc => ?_, fun s hpc => ?_⟩
  · simp only [workerStep, hpc, dForce, needWritten, hd, goto]
  · rw [workerStep, hpc]; rfl
  · rw [workerStep, hpc]; rfl

/-- Settles O19: with the fourth code written out the two tables are the same; the row is `decodeResult`'s. -/
theorem resultByteDecodes : Obligations.ResultByteDecodes := by
  refine fun c r => ⟨?_, decodeResult c r, decodeItem_resultByte c r, decodeResult_wellFormed c r⟩
  simp only [decodeEntry, fourthEntry, biasBit, anyBit_iff]
  cases c.fourthCode with
  | none => rfl
  | some f =>
    obtain ⟨code, e⟩ := f
    by_cases h : r = code
    · simp only [if_pos h]
      rfl
    · simp only [if_neg h]
      rfl

end Sys2Proof.Machine
end

section
/-! The key decoder (43_key_decoder.md R200 to R205): the mapped value, the order of the buttons, the decision of a run,
and the `KEYSCAN` and `BUTTON` rows. -/

namespace Sys2Proof.Machine

section
variable {c : Cfg} {s0 s1 ks : Byte}

/-! ## The fields -/

theorem pairFieldSet_iff {f : PairField} :
    pairFieldSet f s0 s1 = true ↔ (if f.idx = 0 then s0 else s1) &&& f.mask ≠ 0 := by
  unfold pairFieldSet
  split
  · next h => rw [anyBit_iff, if_pos h]
  · next h => rw [anyBit_iff, if_neg (by simp [h])]

theorem pressSet_iff : pressSet c ks s0 s1 = true ↔
    (match c.pressField.src with
      | .keyscan => ks &&& c.pressField.mask
      | .status0 => s0 &&& c.pressField.mask
      | .status1 => s1 &&& c.pressField.mask) ≠ 0 := by
  unfold pressSet
  cases c.pressField.src <;> exact anyBit_iff

/-! ## The mapped value -/

theorem keyscanData_lt (ks : Byte) : (ks &&& 0x3F).toNat < 64 :=
  Nat.lt_succ_of_le (by rw [BitVec.toNat_and]; exact Nat.and_le_right)

/-- The data take six of the seven bits, so that neither the truncation nor the sum wraps (R201). -/
theorem adcMap_toNat (c : Cfg) (ks : Byte) :
    (adcMap c ks).toNat = (ks &&& 0x3F).toNat + if ks &&& c.ksRangeMask = 0 then 64 else 0 := by
  have hdata := keyscanData_lt ks
  have hoffset : ksOffset.toNat = 64 := rfl
  simp only [adcMap, anyBit_iff, ite_not, ne_eq, ksDataMask]
  split
  · rw [BitVec.toNat_add, BitVec.toNat_setWidth]
    omega
  · rw [BitVec.toNat_setWidth]
    omega

/-! ## The button -/

/-- With the mechanical switch clear and the secondary key bit set, the two thresholds decide (R202). -/
theorem decideButton_of_key2 {m : BitVec 7} (hsw : pairFieldSet c.mcswField s0 s1 = false)
    (hkey : key2Set c s0 s1 = true) :
    decideButton c s0 s1 m = some (if m.toNat < c.keyT0 then .button0
      else if m.toNat < c.keyT1 then .button1 else .button2) := by
  simp [decideButton, isButton0, belowT1, hsw, hkey, apply_ite some]

/-- The row that a pair and a byte decode to stores the button, where there is one (R202). -/
theorem exec_decodeButton {s : State} {b : Button}
    (hb : decideButton s.cfg s0 s1 (adcMap s.cfg ks) = some b) :
    exec (decodeButton s.cfg s0 s1 ks) s = .next (latchButton ks (.button b) s) := by
  revert hb
  unfold decodeButton decideButton
  split
  · rintro ⟨⟩; rfl
  split
  · split <;> (rintro ⟨⟩; rfl)
  · rintro ⟨⟩

/-! ## The decision of a run -/

variable {s : State}

theorem keyDecode_of_button {b : Button} (hp : pressSet s.cfg ks s0 s1 = true)
    (hb : decideButton s.cfg s0 s1 (adcMap s.cfg ks) = some b) :
    keyDecode s0 s1 ks s = report (.button b) (latchButton ks (.button b) s) := by
  simp [keyDecode, keyChoice, hp, hb]

theorem keyDecode_of_unrecognized (hp : pressSet s.cfg ks s0 s1 = true)
    (hb : decideButton s.cfg s0 s1 (adcMap s.cfg ks) = none) :
    keyDecode s0 s1 ks s = log (.unrecognizedKey s0 s1 ks) (latchButton ks .unrecognized s) := by
  simp [keyDecode, keyChoice, hp, hb]

theorem keyDecode_of_not_press (hp : ¬pressSet s.cfg ks s0 s1 = true) :
    keyDecode s0 s1 ks s = report .release s := if_neg hp

theorem workerStep_keyDecide (hpc : s.wpc = .eKeyDecide) (h0 : s.loc.s0 = some s0) (h1 : s.loc.s1 = some s1)
    (hk : s.loc.ks = some ks) : workerStep s = .next (goto .rMask1 (keyDecode s0 s1 ks s)) := by
  simp [workerStep, hpc, eKeyDecide, needWritten, h0, h1, hk]

end

/-! ## The obligations -/

/-- Settles O24: the value is `adcMap_toNat`, and a 7-bit value is at most 127. -/
theorem adcMapValue : Obligations.AdcMapValue :=
  fun c ks => ⟨adcMap_toNat c ks, Nat.le_of_lt_succ (adcMap c ks).isLt⟩

/-- Settles O25: each of the model's tests is its field's mask or its threshold, and the order is the same. -/
theorem buttonPriority : Obligations.ButtonPriority := by
  intro c s0 s1 mapped
  simp only [decideButton, isButton0, key2Set, belowT1, Bool.or_eq_true, decide_eq_true_eq, pairFieldSet_iff]

/-- Settles O26: the press bit and the decision pick one of the three outcomes of `keyDecode`. -/
theorem keyDecodeStep : Obligations.KeyDecodeStep := by
  intro s s0 s1 ks hpc h0 h1 hk
  refine ⟨_, workerStep_keyDecide hpc h0 h1 hk, ?_⟩
  by_cases hp : pressSet s.cfg ks s0 s1 = true
  · have hpress := pressSet_iff.mp hp
    cases hb : decideButton s.cfg s0 s1 (adcMap s.cfg ks) with
    | some b =>
      rw [keyDecode_of_button hp hb]
      exact ⟨rfl, congrArg (s.trace ++ [·]) (if_pos hpress).symm⟩
    | none =>
      rw [keyDecode_of_unrecognized hp hb]
      exact ⟨rfl, congrArg (s.trace ++ [·]) (if_pos hpress).symm⟩
  · rw [keyDecode_of_not_press hp]
    exact ⟨rfl, congrArg (s.trace ++ [·]) (if_neg (mt pressSet_iff.mpr hp)).symm⟩

/-- Settles O27: the data are below 64, so equal sums have equal data and equal ranges; and of two mapped values the
smaller is below every threshold that the larger is below. -/
theorem adcMapInjectiveButtonMonotone : Obligations.AdcMapInjectiveButtonMonotone := by
  refine ⟨fun c k1 k2 hmap => ?_, fun c s0 s1 m1 m2 b1 b2 hsw hkey hle hb1 hb2 => ?_⟩
  · have hsum := congrArg BitVec.toNat hmap
    rw [adcMap_toNat, adcMap_toNat] at hsum
    have hlt1 := keyscanData_lt k1
    have hlt2 := keyscanData_lt k2
    by_cases h1 : k1 &&& c.ksRangeMask = 0
    · rw [if_pos h1] at hsum
      by_cases h2 : k2 &&& c.ksRangeMask = 0
      · rw [if_pos h2] at hsum
        exact ⟨BitVec.eq_of_toNat_eq (by omega), iff_of_true h1 h2⟩
      · rw [if_neg h2] at hsum
        omega
    · rw [if_neg h1] at hsum
      by_cases h2 : k2 &&& c.ksRangeMask = 0
      · rw [if_pos h2] at hsum
        omega
      · rw [if_neg h2] at hsum
        exact ⟨BitVec.eq_of_toNat_eq (by omega), iff_of_false h1 h2⟩
  · rw [decideButton_of_key2 hsw hkey, Option.some.injEq] at hb1 hb2
    subst hb1 hb2
    by_cases h0 : m2.toNat < c.keyT0
    · exact Nat.le_of_eq (by rw [if_pos h0, if_pos (by omega : m1.toNat < c.keyT0)])
    by_cases h1 : m2.toNat < c.keyT1
    · rw [if_neg h0, if_pos h1, if_pos (by omega : m1.toNat < c.keyT1)]
      split <;> decide
    · rw [if_neg h0, if_neg h1]
      split
      · decide
      split <;> decide

/-- Settles O23: each row's arm stores its results, and the row of a pair and a byte is `exec_decodeButton`. -/
theorem keyRows : Obligations.KeyRows :=
  fun _ _ _ _ => ⟨rfl, rfl, rfl, rfl, rfl, fun _ hb => exec_decodeButton hb⟩

end Sys2Proof.Machine
end

section
/-! The host's lifecycle (44_lifecycle.md R220 to R228): when its events are accepted, what each label of the attach,
suspend, resume and remove sequences does, and that a removed block is silent. -/

namespace Sys2Proof.Machine

section
variable {s t : State}

/-! ## When the lifecycle events are accepted -/

theorem eventEnabled_probe_iff : eventEnabled s .probe = true ↔ s.mode = .detached ∧ s.lpc = .lIdle := by
  simp [eventEnabled]

theorem eventEnabled_suspend_iff : eventEnabled s .suspend = true ↔ s.mode = .active ∧ s.lpc = .lIdle := by
  simp [eventEnabled]

theorem eventEnabled_resume_iff : eventEnabled s .resume = true ↔ s.mode = .suspended ∧ s.lpc = .lIdle := by
  simp [eventEnabled]

theorem eventEnabled_remove_iff :
    eventEnabled s .remove = true ↔ (s.mode = .active ∨ s.mode = .suspended) ∧ s.lpc = .lIdle := by
  simp [eventEnabled, attached_iff]

/-! ## The attach -/

/-- The identification check goes on after a read that succeeds with a matching byte, and only then (R222). -/
theorem hostStep_identify {ok : Bool} {v : Byte} (hp : s.lpc = .aId)
    (hr : portRead s.cfg.regId s = some (ok, v, t)) :
    hostStep s = .next (if ok = true ∧ v ∈ s.cfg.idOk then setLpc .aInit t
      else setLpc .lIdle (log (.idMismatch v) { t with mode := .attachFailed })) := by
  simp only [hostStep, hp, aId, hr, idMatches, Bool.and_eq_true, decide_eq_true_eq]
  split <;> rfl

/-! ## The suspend's quiescent writes -/

theorem hostStep_hiz (hp : s.lpc = .sHiz) :
    hostStep s = .next (setLpc .sDisable (portWrite s.cfg.regForce s.cfg.forceHiz s)) := by
  rw [hostStep, hp]; rfl

theorem hostStep_disable (hp : s.lpc = .sDisable) :
    hostStep s = .next (setLpc .sCache (portUpdate s.cfg.regEnable s.cfg.enMask 0x00 s)) := by
  rw [hostStep, hp]; rfl

/-- An update over the bus is traced, succeeds where the environment may not fail it, and a success sets the codec's bits
under the mask (R54, R55). -/
theorem portUpdate_bus (a m v : Byte) (hc : s.cacheOnly = false) :
    ∃ ok, (s.cfg.ioFail = false → ok = true) ∧
      (portUpdate a m v s).trace[s.trace.length]? = some (.port (.update a m v) ok (some .bus)) ∧
      (ok = true → (portUpdate a m v s).hw = RegFile.setBits s.hw a m v) := by
  obtain ⟨hcache, _⟩ | ⟨_, ok, taken, e, d, hok, h⟩ := portStore_spec (.update a m v) a m v s
  · simp [hc] at hcache
  · rw [portUpdate, h]
    exact ⟨ok, hok, by simp, fun ht => by simp [ht]⟩

/-! ## The resume's clock writes -/

theorem hostStep_clock {q : Nat} {op : StoreOp} (hp : s.lpc = .uClk q)
    (hop : s.cfg.clockDivWrites[q - 1]? = some op) :
    hostStep s = .next (setLpc (if q < s.cfg.clockDivWrites.length then .uClk (q + 1) else .uState)
      (portIssue op s)) := by
  simp only [hostStep, hp, uClk, hop]

/-! ## The remove's hold -/

theorem joinReady_iff : joinReady s = true ↔ s.wpc = .wIdle ∧ s.isr = .off := by
  simp [joinReady]

theorem hostStep_join (hp : s.lpc = .xJoin) :
    hostEnabled s = joinReady s ∧ hostStep s = .next (if joinReady s then
      setLpc .lIdle { s with slot := slotJoin s.slot, mode := .removed } else s) := by
  simp only [hostEnabled, hostStep, hp, xJoin, and_self]

/-! ## A removed block -/

theorem EventMove.eq_of_removed (hm : EventMove s t) (hmode : s.mode = .removed) : t = s := by
  have ha : attached s = false := by simp [attached, hmode]
  cases hm with
  | ignored => rfl
  | probe h | suspend h | resume h => rw [hmode] at h; cases h
  | irq h | fire _ _ h | remove h => rw [ha] at h; cases h

/-- `L_IDLE` has no step: every other constructor starts at a label of its own. -/
theorem HostMove.eq_of_idle (hm : HostMove s t) (hp : s.lpc = .lIdle) : t = s := by
  cases hm with
  | idle | held => rfl
  | _ => simp_all

/-- `Off` has no step: every other constructor starts at a point of its own. -/
theorem IsrMove.eq_of_off (hm : IsrMove s t) (hi : s.isr = .off) : t = s := by
  cases hm with
  | off => rfl
  | _ => simp_all

/-- No sequence runs in a removed block: each label lies in other modes (R227). -/
theorem ControlInv.lpc_of_removed (h : ControlInv s) (hmode : s.mode = .removed) : s.lpc = .lIdle := by
  have hlife := h.lifeMode
  rw [hmode] at hlife
  cases hp : s.lpc <;> simp [hp, lifeModeOk] at hlife ⊢

end

/-! ## The obligations -/

/-- Settles O9: each event's enabling test is the mode and the idle point of R227's table. -/
theorem lifecycleEventsAccepted : Obligations.LifecycleEventsAccepted := by
  refine fun s => ⟨fun h => ?_, fun h => ?_, fun h => ?_, fun h => ?_, fun h => ?_, fun h => ?_, fun h => ?_,
    fun h => ?_⟩
  · exact congrArg _ (if_pos (eventEnabled_probe_iff.mpr h))
  · exact congrArg _ (if_neg (mt eventEnabled_probe_iff.mp h))
  · exact congrArg _ (if_pos (eventEnabled_suspend_iff.mpr h))
  · exact congrArg _ (if_neg (mt eventEnabled_suspend_iff.mp h))
  · exact congrArg _ (if_pos (eventEnabled_resume_iff.mpr h))
  · exact congrArg _ (if_neg (mt eventEnabled_resume_iff.mp h))
  · exact congrArg _ (if_pos (eventEnabled_remove_iff.mpr h))
  · exact congrArg _ (if_neg (mt eventEnabled_remove_iff.mp h))

/-- Settles O42: a power call is `powerCall_spec`, the check the two branches of `hostStep_identify`; the last label's
request finds the slot free and is taken. -/
theorem attachSteps : Obligations.AttachSteps := by
  refine ⟨fun s hm hp => ?_, fun s hp => ?_, fun s hp => ?_, fun s t ok v hp hr => ⟨fun h => ?_, fun h => ?_⟩,
    fun s hp hs => ?_⟩
  · exact congrArg _ (if_pos (eventEnabled_probe_iff.mpr ⟨hm, hp⟩))
  · obtain ⟨ok, e, d, h⟩ := powerCall_spec .enable s
    exact ⟨ok, e, d, by simp only [hostStep, hp, aPwrEn, h]; rfl⟩
  · obtain ⟨ok, e, d, h⟩ := powerCall_spec (.setVoltage s.cfg.pwrTarget) s
    exact ⟨ok, e, d, by simp only [hostStep, hp, aPwrV, h]; rfl⟩
  · rw [hostStep_identify hp hr, if_pos h]; rfl
  · rw [hostStep_identify hp hr, if_neg h]; rfl
  · simp only [hostStep, hp, aInit, schedule_eq, hs]; rfl

/-- Settles O43: each label has one outcome; over the bus a quiescent write that succeeds sets the codec's register, all
of it or the bits under the mask. -/
theorem suspendSteps : Obligations.SuspendSteps := by
  refine ⟨fun s hm hp => ?_, fun s hp => ?_, fun s => hostStep_hiz, fun s => hostStep_disable, fun s hp => ?_,
    fun s hp hc hw => ?_, fun s hp hc hw => ?_⟩
  · exact congrArg _ (if_pos (eventEnabled_suspend_iff.mpr ⟨hm, hp⟩))
  · rw [hostStep, hp]; rfl
  · rw [hostStep, hp]; rfl
  · obtain ⟨ok, htrace, hio, hhw⟩ := portWrite_bus s.cfg.regForce s.cfg.forceHiz hc
    refine ⟨_, ok, hostStep_hiz hp, hio, htrace, fun hok => ?_⟩
    rw [setLpc_hw, hhw hok, RegFile.byte_setBits_all hw]
  · obtain ⟨ok, hio, htrace, hhw⟩ := portUpdate_bus s.cfg.regEnable s.cfg.enMask 0x00 hc
    refine ⟨_, ok, hostStep_disable hp, hio, htrace, fun hok i hi => ?_⟩
    rw [setLpc_hw, hhw hok, RegFile.bit_setBits hw, if_pos ⟨rfl, hi⟩]
    exact congrArg some BitVec.getLsbD_zero

/-- Settles O44: each label has one outcome; a clock operation is `portIssue`, a write or an update. -/
theorem resumeSteps : Obligations.ResumeSteps := by
  refine ⟨fun s hm hp => ?_, fun s hp => ?_, fun s hp => ?_, fun s q a v => hostStep_clock,
    fun s q a m v => hostStep_clock, fun s hp => ?_⟩
  · exact congrArg _ (if_pos (eventEnabled_resume_iff.mpr ⟨hm, hp⟩))
  · rw [hostStep, hp]; rfl
  · simp only [hostStep, hp, uResync, List.length_eq_zero_iff]
    rfl
  · rw [hostStep, hp]; rfl

/-- Settles O45: the join is enabled, and goes on, exactly where the worker and the handler are idle; else the caller is
held. -/
theorem removeSteps : Obligations.RemoveSteps := by
  refine ⟨fun s hm hp => ?_, fun s hp => ?_, fun s hp hbusy => ?_, fun s hp hidle => ?_⟩
  · exact congrArg _ (if_pos (eventEnabled_remove_iff.mpr ⟨hm, hp⟩))
  · rw [hostStep, hp]; rfl
  · have hj := mt joinReady_iff.mp hbusy
    obtain ⟨he, hstep⟩ := hostStep_join hp
    exact ⟨by simpa [he] using hj, hstep.trans (congrArg _ (if_neg hj))⟩
  · have hj := joinReady_iff.mpr hidle
    obtain ⟨he, hstep⟩ := hostStep_join hp
    refine ⟨he.trans hj, hstep.trans ?_⟩
    rw [if_pos hj]
    cases s.slot <;> rfl

/-- Settles O58: in a removed block no sequence, handler or worker runs and no event is accepted, so a step uses up input
and free values at most. -/
theorem removedIsSilent : Obligations.RemovedIsSilent := by
  intro s t hs hmode hl hstep
  obtain ⟨u, hu, hmove⟩ := step_move_of_no_item hstep hl
  have hinv := hs.onlyModel hu
  have hum : u.mode = .removed := hu.mode.trans hmode
  obtain ⟨hw, hi, _⟩ := hinv.quiet (by simp [attached, hum])
  have hkept : OnlyModel u t := by
    obtain he | hh | hm | hm | hq := hmove
    · rw [he.eq_of_removed hum]; exact .refl u
    · rw [hh.eq_of_idle (hinv.lpc_of_removed hum)]; exact .refl u
    · rw [hm.eq_of_off hi]; exact .refl u
    · rw [hm.eq_of_idle hw]; exact .refl u
    · exact hq
  exact ⟨hkept.trace.trans hu.trace, hkept.mode.trans hum⟩

end Sys2Proof.Machine
end

section
/-! A step runs the decoded instruction, or one agent's enabled step, and in a final state no agent has one
(60_exceptions.md R246, R261; 30_encoding.md R83, R84). -/

namespace Sys2Proof.Machine

section
variable {s : State}

/-! ## The step, by what is in the latch -/

theorem step_item {it : Item} (hl : s.latch = some it) (hr : runRefusal s = none) :
    step s = runItem it { s with latch := none } := by
  rw [step, hl]
  exact unlessRefused_eq hr

theorem step_agent (hl : s.latch = none) (hr : runRefusal s = none) :
    step s = perform (nextMove s) (afterChoice s) := by
  rw [step, hl]
  exact unlessRefused_eq hr

theorem afterChoice_of_script (ho : s.order ≠ .free) : afterChoice s = s := by
  unfold afterChoice
  cases h : s.order with
  | free => exact absurd h ho
  | eager | named => rfl

/-! ## The picks of the free order -/

theorem pickMove_mem (s : State) (n : Nat) : pickMove s n ∈ enabledMoves s := by
  have hpos : 0 < (enabledMoves s).length := List.length_pos_of_mem ((mem_enabledMoves (m := .idle)).mpr rfl)
  rw [pickMove, List.getD_eq_getElem?_getD, List.getElem?_eq_getElem (Nat.mod_lt n hpos), Option.getD_some]
  exact List.getElem_mem _

theorem exists_pickMove {m : Move} (hm : m ∈ enabledMoves s) : ∃ n, pickMove s n = m := by
  obtain ⟨n, hn, rfl⟩ := List.getElem_of_mem hm
  refine ⟨n, ?_⟩
  rw [pickMove, Nat.mod_eq_of_lt hn, List.getD_eq_getElem?_getD, List.getElem?_eq_getElem hn, Option.getD_some]

/-! ## The orders of a script -/

/-- The eager order goes through the agents one after the other, and comes to the script when none has a step (R84). -/
theorem nextMove_eager (ho : s.order = .eager) :
    (nextMove s = .host ∧ hostEnabled s = true) ∨ (nextMove s = .isr ∧ isrEnabled s = true) ∨
    (nextMove s = .worker ∧ workerEnabled s = true) ∨
    (nextMove s = .line ∧ hostEnabled s = false ∧ isrEnabled s = false ∧ workerEnabled s = false) := by
  simp only [nextMove, ho, eagerMove]
  cases hostEnabled s <;> cases isrEnabled s <;> cases workerEnabled s <;> decide

/-- The named order asks the host alone before it goes on with the script (R83, log 4). -/
theorem nextMove_named (ho : s.order = .named) :
    (nextMove s = .host ∧ hostEnabled s = true) ∨ (nextMove s = .line ∧ hostEnabled s = false) := by
  simp only [nextMove, ho, namedMove]
  cases hostEnabled s <;> decide

/-- With no agent at work both orders of a script come to its next line. -/
theorem nextMove_of_quiet (ho : s.order ≠ .free) (hh : hostEnabled s = false) (hi : isrEnabled s = false)
    (hw : workerEnabled s = false) : nextMove s = .line := by
  cases h : s.order with
  | free => exact absurd h ho
  | eager => simp [nextMove, h, eagerMove, hh, hi, hw]
  | named => simp [nextMove, h, namedMove, hh]

theorem step_line (hl : s.latch = none) (hr : runRefusal s = none) (ho : s.order ≠ .free)
    (hh : hostEnabled s = false) (hi : isrEnabled s = false) (hw : workerEnabled s = false) :
    step s = lineStep s := by
  rw [step_agent hl hr, nextMove_of_quiet ho hh hi hw, afterChoice_of_script ho]
  rfl

/-! ## Agents without a step -/

theorem hostEnabled_of_idle (hp : s.lpc = .lIdle) : hostEnabled s = false := by rw [hostEnabled, hp]

theorem isrEnabled_eq_false_iff : isrEnabled s = false ↔ s.isr = .off := bne_eq_false_iff_eq

theorem workerEnabled_eq_false_iff : workerEnabled s = false ↔ s.wpc = .wIdle := bne_eq_false_iff_eq

/-- The host has no step while it is idle, and none while the join holds it (R108). -/
theorem hostStep_of_disabled (h : hostEnabled s = false) : hostStep s = .next s := by
  cases hp : s.lpc with
  | lIdle => rw [hostStep, hp]
  | xJoin =>
    obtain ⟨he, hstep⟩ := hostStep_join hp
    rw [hstep, ← he, h]
    rfl
  | _ => simp [hostEnabled, hp] at h

theorem isrStep_of_disabled (h : isrEnabled s = false) : isrStep s = .next s := by
  rw [isrStep, isrEnabled_eq_false_iff.mp h]

theorem workerStep_of_disabled (h : workerEnabled s = false) : workerStep s = .next s := by
  rw [workerStep, workerEnabled_eq_false_iff.mp h]

theorem isFinal_iff : isFinal s = true ↔
    s.lpc = .lIdle ∧ s.isr = .off ∧ s.wpc = .wIdle ∧ s.slot = .idle ∧ s.faults = [] ∧ runRefusal s = none := by
  rw [isFinal]
  simp only [Bool.and_eq_true, beq_iff_eq, List.isEmpty_iff, Option.isNone_iff_eq_none, and_assoc]

end

/-! ## The obligations -/

/-- Settles O5: an offered item is `step_item` and `runItem_eq`; the event line is the script's, and its byte decodes to
its event's row. -/
theorem stepRunsDecoded : Obligations.StepRunsDecoded := by
  refine ⟨fun s it i hl hr hd => ?_, fun s nbits w i hr hd => ?_, fun s code e rest hl hr ho hp hi hw hs he => ?_⟩
  · rw [step_item hl hr]
    exact runItem_eq hd
  · have hr' : runRefusal (s.withFetchWord nbits w) = none := hr
    rw [step_item rfl hr']
    exact runItem_eq hd
  · have hd : decodeItem s.cfg ⟨.event, [code]⟩ = .ok e.instr := by rw [decodeItem_eventByte, decodeEvent, he]
    rw [step_line hl hr (by simp [ho]) (hostEnabled_of_idle hp) (isrEnabled_eq_false_iff.mpr hi)
      (workerEnabled_eq_false_iff.mpr hw), lineStep, hs]
    exact runItem_eq hd

/-- Settles O6: the step carries out the next move; the picks are the members of `enabledMoves`, and a script's orders are
`nextMove_eager` and `nextMove_named`. -/
theorem stepRunsOneAgent : Obligations.StepRunsOneAgent := by
  refine ⟨fun s hl hr => ?_, fun s ho => ?_, fun s n => mem_enabledMoves.mp (pickMove_mem s n),
    fun s m hm => exists_pickMove (mem_enabledMoves.mpr hm), fun s ho => ?_, fun s ho hline => ?_,
    fun s => ⟨hostStep_of_disabled, isrStep_of_disabled, workerStep_of_disabled⟩⟩
  · rw [step_agent hl hr]
    cases nextMove s <;> rfl
  · rw [nextMove, ho]
    rfl
  · cases h : s.order with
    | free => exact absurd h ho
    | eager => exact (nextMove_eager h).imp_right (Or.imp_right (Or.imp_right (And.imp_right And.left)))
    | named => exact (nextMove_named h).imp_right fun h => .inr (.inr h)
  · have h := nextMove_eager ho
    simp only [hline, reduceCtorEq, false_and, false_or, true_and] at h
    exact h.2

/-- Settles O59: each condition of `isFinal_iff` stops one agent, and a script that is used up has no line. -/
theorem finalStateIsQuiet : Obligations.FinalStateIsQuiet := by
  intro s hfinal hl
  obtain ⟨hp, hi, hw, hslot, _, hr⟩ := isFinal_iff.mp hfinal
  have hhost := hostEnabled_of_idle hp
  have hisr := isrEnabled_eq_false_iff.mpr hi
  have hworker := workerEnabled_eq_false_iff.mpr hw
  refine ⟨hhost, hisr, hworker, by rw [eventEnabled, hslot], fun ho hs => ?_⟩
  rw [step_line hl hr ho hhost hisr hworker, lineStep, hs]

end Sys2Proof.Machine
end

section
/-! A worker run ends: every step of it that goes on leaves fewer, from a bound that the configuration gives
(60_exceptions.md R260; 42_detection_sequencer.md R164, R181). -/

namespace Sys2Proof.Machine

section
variable {c : Cfg} {s t : State} {j : Nat}

/-! ## The attempts left -/

theorem twelve_le_stepsAfterAttempt (c : Cfg) (j : Nat) : 12 ≤ stepsAfterAttempt c j := Nat.le_add_right _ _

/-- One more attempt costs the steps of one attempt. -/
theorem stepsAfterAttempt_succ (h : j < c.retryBudget) :
    stepsAfterAttempt c j = stepsAfterAttempt c (j + 1) + attemptSteps c := by
  have hj : c.retryBudget - j = c.retryBudget - (j + 1) + 1 := by omega
  simp only [stepsAfterAttempt, hj, Nat.add_mul, Nat.one_mul, Nat.add_assoc]

/-- An attempt that is made leaves room for its own steps. -/
theorem stepsAfterAttempt_add_le (h1 : 1 ≤ j) (h : j ≤ c.retryBudget) :
    stepsAfterAttempt c j + attemptSteps c ≤ stepsAfterAttempt c 0 := by
  have hj : c.retryBudget - j + 1 ≤ c.retryBudget := by omega
  have hmul := Nat.mul_le_mul_right (attemptSteps c) hj
  rw [Nat.add_mul, Nat.one_mul] at hmul
  simp only [stepsAfterAttempt, Nat.sub_zero]
  omega

/-- The budget bounds the number of the attempt (R181). -/
theorem attemptOk_bounds (h : attemptOk j s = true) : 1 ≤ j ∧ j ≤ s.cfg.retryBudget := by
  obtain ⟨_, _, h1, r, _, hr, hsum⟩ := attemptOk_iff.mp h
  exact ⟨h1, by omega⟩

/-! ## The bound -/

/-- No label has more steps left than the dispatch of a detection. -/
theorem stepsLeft_le (hl : labelOk s = true) :
    stepsLeft s ≤ stepsAfterAttempt s.cfg 0 + s.cfg.debounceSamples + 2 := by
  have h12 := twelve_le_stepsAfterAttempt s.cfg 0
  have attempt {j : Nat} (h : attemptOk j s = true) :
      stepsAfterAttempt s.cfg j + (max 1 (testStart s.cfg).length + s.cfg.pollCap + 2) ≤ stepsAfterAttempt s.cfg 0 :=
    stepsAfterAttempt_add_le (attemptOk_bounds h).1 (attemptOk_bounds h).2
  unfold stepsLeft
  cases hpc : s.wpc <;> dsimp only
  case dDeb => have := (labelOk_dDeb hpc).mp hl; omega
  case dStart => obtain ⟨ha, _⟩ := (labelOk_dStart hpc).mp hl; have := attempt ha; omega
  case dPoll => obtain ⟨ha, _⟩ := (labelOk_dPoll hpc).mp hl; have := attempt ha; omega
  case dResult => obtain ⟨ha, _⟩ := (labelOk_dResult hpc).mp hl; have := attempt ha; omega
  case dRetry => obtain ⟨ha, _⟩ := (labelOk_dRetry hpc).mp hl; have := attempt ha; omega
  all_goals omega

/-! ## The measure -/

theorem WorkerMove.cfg (hm : WorkerMove s t) : t.cfg = s.cfg := by cases hm <;> simp

/-- A step with two targets leaves as many steps as the one it takes. -/
theorem stepsLeft_goto_ite {p : Prop} [Decidable p] {l m : Label} {n : Nat} (hl : p → stepsLeft (goto l s) < n)
    (hm : ¬p → stepsLeft (goto m s) < n) : stepsLeft (goto (if p then l else m) s) < n := by
  split
  · next hp => exact hl hp
  · next hp => exact hm hp

/-- A step of the worker goes to a label with fewer steps left. Most labels have one number each; the loops over `k`, `q`
and `i` count to their bounds, and a retry has an attempt less to come. -/
theorem WorkerMove.stepsLeft_lt (hm : WorkerMove s t) (hc : cfgOk s.cfg = true) (h : RunInv s)
    (hw : s.wpc ≠ .wIdle) (hsnap : s.wpc = .eTest → s.snap ≠ none) : stepsLeft t < stepsLeft s := by
  obtain ⟨hb, _, _⟩ := cfgOk_bounds hc
  have h12 := twelve_le_stepsAfterAttempt s.cfg
  have hattempt : attemptSteps s.cfg = max 1 (testStart s.cfg).length + s.cfg.pollCap + 2 := rfl
  cases hm with
  | idle hpc => exact absurd hpc hw
  | stuck hf =>
    obtain ⟨hpc, hn, _⟩ := readsUnwritten_snap h hf
    exact absurd hn (hsnap hpc)
  | dispatch hpc =>
    have := h12 0
    refine stepsLeft_goto_ite (fun _ => ?_) fun _ => ?_ <;> simp only [stepsLeft, hpc, goto_wpc, goto_cfg] <;> omega
  | entry hpc =>
    simp only [stepsLeft, hpc, goto_wpc, goto_cfg]
    omega
  | debounce hpc =>
    obtain ⟨_, _, _, _, hk⟩ := (labelOk_dDeb hpc).mp h.label
    have := h12 0
    have : stepsAfterAttempt s.cfg 0 = stepsAfterAttempt s.cfg 1 + attemptSteps s.cfg := stepsAfterAttempt_succ hb
    refine stepsLeft_goto_ite (fun _ => ?_) fun _ => stepsLeft_goto_ite (fun _ => ?_) fun _ => ?_ <;>
      simp only [stepsLeft, hpc, goto_wpc, goto_cfg, portTo] <;> omega
  | startNone hpc =>
    obtain ⟨_, _, hq⟩ := (labelOk_dStart hpc).mp h.label
    simp only [stepsLeft, hpc, goto_wpc, goto_cfg]
    omega
  | start hpc =>
    obtain ⟨_, _, hq⟩ := (labelOk_dStart hpc).mp h.label
    refine stepsLeft_goto_ite (fun _ => ?_) fun _ => ?_ <;>
      simp only [stepsLeft, hpc, goto_wpc, goto_cfg, portIssue_cfg] <;> omega
  | pollDone hpc | pollTimeout hpc =>
    obtain ⟨_, _, hi⟩ := (labelOk_dPoll hpc).mp h.label
    simp only [stepsLeft, hpc, goto_wpc, goto_cfg, portTo, log_eq_emit, emit_cfg]
    omega
  | pollAgain hpc =>
    simp only [stepsLeft, hpc, goto_wpc, goto_cfg, portTo]
    omega
  | @retryAgain j r _ _ hpc ht hdet hfail hr hleft =>
    obtain ⟨hatt, _⟩ := (labelOk_dRetry hpc).mp h.label
    obtain ⟨_, _, _, r', hr', _, hsum⟩ := attemptOk_iff.mp hatt
    obtain rfl : r = r' := Option.some.inj (hr.symm.trans hr')
    have := stepsAfterAttempt_succ (c := s.cfg) (j := j) (by omega)
    simp only [stepsLeft, hpc, goto_wpc, goto_cfg]
    omega
  | @retryExhausted j _ _ _ hpc | @retrySucceeded j _ _ hpc =>
    have := h12 j
    simp only [stepsLeft, hpc, goto_wpc, log_eq_emit]
    omega
  | hizPresent hpc | hizAbsent hpc | recheck hpc | test hpc | readS1 hpc =>
    refine stepsLeft_goto_ite (fun _ => ?_) fun _ => ?_ <;> simp [stepsLeft, hpc]
  | _ => simp [stepsLeft, *]

end

/-- Settles O53: the bound is that of a dispatch, and each outcome of a worker's step leaves fewer steps. -/
theorem workerRunIsBounded : Obligations.WorkerRunIsBounded := by
  intro s h hc hw hsnap
  refine ⟨?_, fun t hstep => (workerStep_move hstep).stepsLeft_lt hc h hw hsnap⟩
  have hle := stepsLeft_le h.label
  simp only [stepsAfterAttempt, attemptSteps, Nat.sub_zero] at hle
  omega

end Sys2Proof.Machine
end

section
/-! The state before `EV_PROBE`, for every configuration (70_reset_and_hazards.md R270, R272): what the codec's
registers hold, and the invariants' base case. -/

namespace Sys2Proof.Machine

/-! ## The codec's registers at reset -/

@[simp] theorem RegFile.mask_unknown (a : Byte) : RegFile.mask RegFile.unknown a = 0 := rfl

@[simp] theorem RegFile.bit_unknown (a : Byte) (i : Fin 8) : RegFile.bit RegFile.unknown a i = none := by
  simp [RegFile.bit]

section
variable {c : Cfg} {a : Byte}

/-- The first of the two writes that `resetHw` is made of leaves a canonical file. -/
theorem resetHw_firstWrite_wf (c : Cfg) :
    RegFile.wf (RegFile.setBits RegFile.unknown c.regIrqMask1 0xFF c.resetMasks.m1) = true :=
  RegFile.wf_setBits RegFile.wf_unknown _ _ _

theorem resetHw_wf (c : Cfg) : RegFile.wf (resetHw c) = true :=
  RegFile.wf_setBits (resetHw_firstWrite_wf c) _ _ _

/-- The second write spares mask register 1 only at another address (20_memory.md R63). -/
theorem byte_resetHw_mask1 (h : c.regIrqMask1 ≠ c.regIrqMask2) :
    RegFile.byte (resetHw c) c.regIrqMask1 = some c.resetMasks.m1 := by
  rw [resetHw, RegFile.byte_setBits_ne (resetHw_firstWrite_wf c) _ _ h.symm,
    RegFile.byte_setBits_all RegFile.wf_unknown]

theorem byte_resetHw_mask2 (c : Cfg) : RegFile.byte (resetHw c) c.regIrqMask2 = some c.resetMasks.m2 :=
  RegFile.byte_setBits_all (resetHw_firstWrite_wf c) _ _

theorem bit_resetHw_other (h1 : a ≠ c.regIrqMask1) (h2 : a ≠ c.regIrqMask2) (i : Fin 8) :
    RegFile.bit (resetHw c) a i = none := by
  rw [resetHw, RegFile.bit_setBits (resetHw_firstWrite_wf c), if_neg fun h => h2 h.1.symm,
    RegFile.bit_setBits RegFile.wf_unknown, if_neg fun h => h1 h.1.symm, RegFile.bit_unknown]

end

/-! ## The invariants at reset -/

/-- Nothing runs, nothing is pending and no mode after attach is reached. -/
theorem controlInv_resetWith (c : Cfg) : ControlInv (State.resetWith c) where
  singleFlight := by simp [State.resetWith, slotHeld]
  quiet _ := ⟨rfl, rfl, rfl⟩
  lifeMode := rfl
  jackWritten h := absurd rfl h

theorem runInv_resetWith (c : Cfg) : RunInv (State.resetWith c) where
  control := controlInv_resetWith c
  label := rfl

theorem regFilesWf_resetWith (c : Cfg) : regFilesWf (State.resetWith c) = true :=
  Bool.and_eq_true_iff.mpr ⟨resetHw_wf c, RegFile.wf_unknown⟩

theorem noVolatileShadow_resetWith (c : Cfg) : NoVolatileShadow (State.resetWith c) :=
  fun a _ => RegFile.mask_unknown a

/-! ## The obligations -/

/-- Settles O46: the fields are those `State.resetWith` names, and the two writes of `resetHw` are read back bit
by bit. -/
theorem resetState : Obligations.ResetState := by
  intro c hne
  refine ⟨rfl, rfl, rfl, rfl, rfl, rfl, rfl, rfl, rfl, rfl, rfl, rfl, rfl, rfl, ?_, ?_, ?_, ?_⟩
  · exact byte_resetHw_mask1 hne
  · exact byte_resetHw_mask2 c
  · exact fun _ i h1 h2 => bit_resetHw_other h1 h2 i
  · exact RegFile.bit_unknown

/-- Settles O47: with the block detached and idle and no shadow bit known, only the two mask registers need an
argument. -/
theorem resetMeetsInvariants : Obligations.ResetMeetsInvariants := fun c =>
  ⟨runInv_resetWith c, regFilesWf_resetWith c, noVolatileShadow_resetWith c, rfl⟩

end Sys2Proof.Machine
end
